-- ==== Sys2Proof/Word.lean ====
section
/-! DEFINITION. The bit widths of the block (R13, R16): every quantity is unsigned, and there is no signed one. -/

namespace Sys2Proof

/-- `u4` of R16: the width of the four header nibbles. -/
abbrev Nibble := BitVec 4

/-- `u8` of R16: one byte of the inbound stream. -/
abbrev Byte := BitVec 8

/-- `u16` of R16: the address length and the ports. -/
abbrev Half := BitVec 16

/-- The header buffer `hbuf[0..15]` of R21. -/
abbrev HeaderBuf := Vector Byte 16

/-- The address buffer `abuf[0..35]` of R22. -/
abbrev AddrBuf := Vector Byte 36

end Sys2Proof
end

