-- ==== Sys2Proof/Config.lean ====
section
/-! DEFINITION. The parameters of R9. The block has no free value: no rule of spec/ leaves a result of an event
undefined. `DEADLINE` and `N_INST` are OPEN in R9 and no rule of the block reads either of them. -/

namespace Sys2Proof.Config

/-- `SIG[0..11]` of R9 and R101, byte 0 first on the wire. It is the ONE place that fixes the constant: C8 keeps it a
parameter, and the decode map below is built from it. -/
def signature : Vector Byte 12 :=
  #v[0x0D, 0x0A, 0x0D, 0x0A, 0x00, 0x0D, 0x0A, 0x51, 0x52, 0x4F, 0x54, 0x0A]

/-- `SIG` as the 96-bit field `W[127:32]` of R71, byte 0 most significant. -/
def signatureWord : BitVec 96 :=
  signature[0] ++ signature[1] ++ signature[2] ++ signature[3] ++ signature[4] ++ signature[5] ++
  signature[6] ++ signature[7] ++ signature[8] ++ signature[9] ++ signature[10] ++ signature[11]

/-- `HDR_LEN` of R9. -/
abbrev hdrLen : Nat := 16

/-- `SIG_LEN` of R9. -/
abbrev sigLen : Nat := 12

/-- `ABUF_LEN` of R9. -/
abbrev abufLen : Nat := 36

/-- `ALEN_MAX` of R9: no smaller cap than the type's (D10). -/
abbrev alenMax : Nat := 65535

/-- `VERSION_OK` of R9. -/
abbrev versionOk : Nibble := 2#4

/-- `CMD_PROXY` of R9. -/
abbrev cmdProxy : Nibble := 1#4

/-- `CMD_LOCAL` of R9: named, and rejected like every other command but PROXY (R115). -/
abbrev cmdLocal : Nibble := 0#4

/-- `FAM_INET4` of R9. -/
abbrev famInet4 : Nibble := 1#4

/-- `FAM_INET6` of R9. -/
abbrev famInet6 : Nibble := 2#4

/-- `V4_MIN` of R9. -/
abbrev v4Min : Nat := 12

/-- `V6_MIN` of R9. -/
abbrev v6Min : Nat := 36

end Sys2Proof.Config
end

