-- ==== Sys2Proof/Syntax.lean ====
section
/-! DEFINITION. The instructions: one constructor per row of spec/opcode_table.json (R76, R77, R78), and the three
places an encoding can stand (R70). -/

namespace Sys2Proof

/-- One constructor per row of the opcode table. The six header forms carry every header field that the row's match
and mask leave open (R71); the events carry what R77 lists; `CFGW` carries `v` (R78). -/
inductive Instr where
  /-- `PROXY.INET4` (R118). -/
  | proxyInet4 (protocol : Nibble) (addressLength : Half)
  /-- `PROXY.INET6` (R119). -/
  | proxyInet6 (protocol : Nibble) (addressLength : Half)
  /-- `REJ.FAMILY` (R116): version 2, command 1, a family that is neither 1 nor 2. -/
  | rejFamily (family protocol : Nibble) (addressLength : Half)
  /-- `REJ.COMMAND` (R115): version 2, a command that is not 1. -/
  | rejCommand (command family protocol : Nibble) (addressLength : Half)
  /-- `REJ.VERSION` (R114): a version that is not 2. -/
  | rejVersion (version command family protocol : Nibble) (addressLength : Half)
  /-- `REJ.SIGNATURE` (R112): a signature that is not `SIG`. -/
  | rejSignature (signature : BitVec 96) (version command family protocol : Nibble) (addressLength : Half)
  /-- `RST` (R173). -/
  | rst
  /-- `CLR` (R171). -/
  | clr
  /-- `TIMEOUT` (R167, R168, R169). -/
  | timeout
  /-- `IOERR` (R166, R169). -/
  | ioerr
  /-- `BYTE` (R160 to R163), with `b = in_data`. -/
  | byte (b : Byte)
  /-- `EOF` (R164, R165, R169). -/
  | eof
  /-- `NONE` (R159). -/
  | noEvent
  /-- `CFGW` (R172), with `v = cfg_wdata`. -/
  | cfgw (v : BitVec 2)
  deriving DecidableEq, Repr

/-- The formats of R70 that hold instructions. The formats A4 and A6 are operands. -/
inductive Format where
  | h16
  | ev
  | cfg
  deriving DecidableEq, Repr

/-- An encoding, in the place where the block finds it: the sixteen header bytes as the word `W` of R71, the pin
vector `p[5:0]` of R77 with `in_data` beside it, or the pin vector `c[1:0]` of R78 with `cfg_wdata` beside it. -/
inductive Code where
  | h16 (w : BitVec 128)
  | ev (p : BitVec 6) (data : Byte)
  | cfg (c : BitVec 2) (v : BitVec 2)
  deriving DecidableEq, Repr

/-- The six rows of R76. -/
inductive HeaderForm where
  | proxyInet4
  | proxyInet6
  | rejFamily
  | rejCommand
  | rejVersion
  | rejSignature
  deriving DecidableEq, Repr

/-- Why a decoder gives no instruction. -/
inductive DecodeRefusal where
  /-- The bytes given are not sixteen: a header is decoded on sixteen bytes only (R111). -/
  | headerLength
  /-- `c = 00`: no configuration write is asserted (R78). -/
  | noConfigWrite
  /-- `c = 10` or `c = 11`: with `rst = 1` the configuration write is suppressed (R78). -/
  | configWriteUnderReset
  deriving DecidableEq, Repr

end Sys2Proof
end

