-- ==== Sys2Proof/WellFormed.lean ====
section
/-! DEFINITION. Which instruction terms stand for a header of their own row: a rejecting form must break the check it
is named after (R76, R112 to R116). Every term of the other constructors is well formed. -/

namespace Sys2Proof

/-- Why a term is ill formed. -/
inductive IllFormed where
  /-- A `REJ.FAMILY` whose family is 1 or 2 (R116). -/
  | familyAccepted
  /-- A `REJ.COMMAND` whose command is 1 (R115). -/
  | commandAccepted
  /-- A `REJ.VERSION` whose version is 2 (R114). -/
  | versionAccepted
  /-- A `REJ.SIGNATURE` whose signature is `SIG` (R112). -/
  | signatureAccepted
  deriving DecidableEq, Repr

/-- The check that a term fails, if any. -/
def Instr.illFormed : Instr → Option IllFormed
  | .proxyInet4 _ _ => none
  | .proxyInet6 _ _ => none
  | .rejFamily f _ _ =>
    if f = Config.famInet4 ∨ f = Config.famInet6 then some .familyAccepted else none
  | .rejCommand c _ _ _ => if c = Config.cmdProxy then some .commandAccepted else none
  | .rejVersion v _ _ _ _ => if v = Config.versionOk then some .versionAccepted else none
  | .rejSignature s _ _ _ _ _ => if s = Config.signatureWord then some .signatureAccepted else none
  | .rst => none
  | .clr => none
  | .timeout => none
  | .ioerr => none
  | .byte _ => none
  | .eof => none
  | .noEvent => none
  | .cfgw _ => none

/-- A term that stands for an encoding of its own row. -/
def Instr.wellFormed (i : Instr) : Bool := i.illFormed.isNone

end Sys2Proof
end

