-- ==== Sys2Proof/Decode.lean ====
section
/-! DEFINITION. The decode maps of R76, R77 and R78, the encoder, and the byte-order helpers of R74. -/

namespace Sys2Proof

/-! ## Byte order and bit fields (R56, R74) -/

/-- `be16(b0, b1)` of R15: `b0` is the byte at the lower offset. -/
def be16 (b0 b1 : Byte) : Half := b0 ++ b1

/-- The high nibble `b[7:4]` of R13. -/
def hiNibble (b : Byte) : Nibble := b.extractLsb' 4 4

/-- The low nibble `b[3:0]` of R13. -/
def loNibble (b : Byte) : Nibble := b.extractLsb' 0 4

/-- The word `W` of R71: header byte 0 in `W[127:120]`, header byte 15 in `W[7:0]`. -/
def headerWord (h : HeaderBuf) : BitVec 128 :=
  h[0] ++ h[1] ++ h[2] ++ h[3] ++ h[4] ++ h[5] ++ h[6] ++ h[7] ++
  h[8] ++ h[9] ++ h[10] ++ h[11] ++ h[12] ++ h[13] ++ h[14] ++ h[15]

/-- The sixteen header bytes of a word `W`: byte `i` is `W[127-8i : 120-8i]` (R71). -/
def headerBytes (w : BitVec 128) : HeaderBuf :=
  #v[w.extractLsb' 120 8, w.extractLsb' 112 8, w.extractLsb' 104 8, w.extractLsb' 96 8,
     w.extractLsb' 88 8, w.extractLsb' 80 8, w.extractLsb' 72 8, w.extractLsb' 64 8,
     w.extractLsb' 56 8, w.extractLsb' 48 8, w.extractLsb' 40 8, w.extractLsb' 32 8,
     w.extractLsb' 24 8, w.extractLsb' 16 8, w.extractLsb' 8 8, w.extractLsb' 0 8]

/-- Field `signature` of R71, `W[127:32]`. -/
def signatureField (w : BitVec 128) : BitVec 96 := w.extractLsb' 32 96

/-- Field `version` of R71, `W[31:28]`. -/
def versionField (w : BitVec 128) : Nibble := w.extractLsb' 28 4

/-- Field `command` of R71, `W[27:24]`. -/
def commandField (w : BitVec 128) : Nibble := w.extractLsb' 24 4

/-- Field `family` of R71, `W[23:20]`. -/
def familyField (w : BitVec 128) : Nibble := w.extractLsb' 20 4

/-- Field `protocol` of R71, `W[19:16]`. -/
def protocolField (w : BitVec 128) : Nibble := w.extractLsb' 16 4

/-- Field `address_length` of R71, `W[15:0]`. -/
def addressLengthField (w : BitVec 128) : Half := w.extractLsb' 0 16

/-- A word `W` from its six fields, most significant first (R71). -/
def headerFields (sig : BitVec 96) (version command family protocol : Nibble) (addressLength : Half) :
    BitVec 128 :=
  sig ++ version ++ command ++ family ++ protocol ++ addressLength

/-! ## The rows of the opcode table -/

/-- A row's match and mask. -/
structure Pattern (n : Nat) where
  bits : BitVec n
  mask : BitVec n
  deriving DecidableEq, Repr

/-- A row applies when `(W & mask) = match` (R76). -/
def Pattern.hits {n : Nat} (r : Pattern n) (w : BitVec n) : Bool := w &&& r.mask == r.bits

/-- The row of each header form (R76), built from `SIG`: the fields that the row fixes, and all ones in the mask over
them. Slice0's tests hold the rows against the table's own digits. -/
def HeaderForm.row : HeaderForm → Pattern 128
  | .proxyInet4 =>
    ⟨headerFields Config.signatureWord Config.versionOk Config.cmdProxy Config.famInet4 0#4 0#16,
      headerFields (BitVec.allOnes 96) 15#4 15#4 15#4 0#4 0#16⟩
  | .proxyInet6 =>
    ⟨headerFields Config.signatureWord Config.versionOk Config.cmdProxy Config.famInet6 0#4 0#16,
      headerFields (BitVec.allOnes 96) 15#4 15#4 15#4 0#4 0#16⟩
  | .rejFamily =>
    ⟨headerFields Config.signatureWord Config.versionOk Config.cmdProxy 0#4 0#4 0#16,
      headerFields (BitVec.allOnes 96) 15#4 15#4 0#4 0#4 0#16⟩
  | .rejCommand =>
    ⟨headerFields Config.signatureWord Config.versionOk 0#4 0#4 0#4 0#16,
      headerFields (BitVec.allOnes 96) 15#4 0#4 0#4 0#4 0#16⟩
  | .rejVersion =>
    ⟨headerFields Config.signatureWord 0#4 0#4 0#4 0#4 0#16,
      headerFields (BitVec.allOnes 96) 0#4 0#4 0#4 0#4 0#16⟩
  | .rejSignature =>
    ⟨headerFields 0#96 0#4 0#4 0#4 0#4 0#16, headerFields 0#96 0#4 0#4 0#4 0#4 0#16⟩

/-- The row of each event over `p[5:0] = rst, clr, timeout, in_err, beat, in_eof` (R77). -/
def rowRst : Pattern 6 := ⟨0b100000#6, 0b100000#6⟩
@[inherit_doc rowRst] def rowClr : Pattern 6 := ⟨0b010000#6, 0b110000#6⟩
@[inherit_doc rowRst] def rowTimeout : Pattern 6 := ⟨0b001000#6, 0b111000#6⟩
@[inherit_doc rowRst] def rowIoerr : Pattern 6 := ⟨0b000100#6, 0b111100#6⟩
@[inherit_doc rowRst] def rowByte : Pattern 6 := ⟨0b000010#6, 0b111110#6⟩
@[inherit_doc rowRst] def rowEof : Pattern 6 := ⟨0b000001#6, 0b111111#6⟩

/-- The row of `CFGW` over `c[1:0] = rst, cfg_we` (R78). -/
def rowCfgw : Pattern 2 := ⟨0b01#2, 0b11#2⟩

/-! ## The decoders -/

/-- The decode map of R76: the first row that applies, rows tried in the table's order. -/
def classifyHeader (w : BitVec 128) : HeaderForm :=
  if HeaderForm.proxyInet4.row.hits w then .proxyInet4
  else if HeaderForm.proxyInet6.row.hits w then .proxyInet6
  else if HeaderForm.rejFamily.row.hits w then .rejFamily
  else if HeaderForm.rejCommand.row.hits w then .rejCommand
  else if HeaderForm.rejVersion.row.hits w then .rejVersion
  else .rejSignature

/-- The instruction of a header word: its form (R76) with its fields (R71). Total, as R79 says. -/
def decodeHeaderWord (w : BitVec 128) : Instr :=
  match classifyHeader w with
  | .proxyInet4 => .proxyInet4 (protocolField w) (addressLengthField w)
  | .proxyInet6 => .proxyInet6 (protocolField w) (addressLengthField w)
  | .rejFamily => .rejFamily (familyField w) (protocolField w) (addressLengthField w)
  | .rejCommand =>
    .rejCommand (commandField w) (familyField w) (protocolField w) (addressLengthField w)
  | .rejVersion =>
    .rejVersion (versionField w) (commandField w) (familyField w) (protocolField w)
      (addressLengthField w)
  | .rejSignature =>
    .rejSignature (signatureField w) (versionField w) (commandField w) (familyField w)
      (protocolField w) (addressLengthField w)

/-- The event of a pin vector (R77): the first row that applies. Total, as R82 says. -/
def decodeEvent (p : BitVec 6) (data : Byte) : Instr :=
  if rowRst.hits p then .rst
  else if rowClr.hits p then .clr
  else if rowTimeout.hits p then .timeout
  else if rowIoerr.hits p then .ioerr
  else if rowByte.hits p then .byte data
  else if rowEof.hits p then .eof
  else .noEvent

/-- The configuration write of a pin vector (R78), or why there is none. -/
def decodeConfig (c v : BitVec 2) : Except DecodeRefusal Instr :=
  if rowCfgw.hits c then .ok (.cfgw v)
  else if c.getLsbD 1 then .error .configWriteUnderReset
  else .error .noConfigWrite

/-- The decoder over the three places of an encoding. -/
def decode : Code → Except DecodeRefusal Instr
  | .h16 w => .ok (decodeHeaderWord w)
  | .ev p data => .ok (decodeEvent p data)
  | .cfg c v => decodeConfig c v

/-- Sixteen bytes in stream order as a header word, and no other number of them (R111). -/
def headerOfList : List Byte → Option HeaderBuf
  | [b0, b1, b2, b3, b4, b5, b6, b7, b8, b9, b10, b11, b12, b13, b14, b15] =>
    some #v[b0, b1, b2, b3, b4, b5, b6, b7, b8, b9, b10, b11, b12, b13, b14, b15]
  | _ => none

/-- The decoder on stream bytes: total on any list, a list of another length rejected by name (R111). -/
def decodeBytes (bs : List Byte) : Except DecodeRefusal Instr :=
  match headerOfList bs with
  | some h => decode (.h16 (headerWord h))
  | none => .error .headerLength

/-! ## The encoder -/

/-- The encoding of a well-formed instruction (R71, R77, R78). A pin that the event's row leaves open is 0. -/
def encode : Instr → Code
  | .proxyInet4 p l =>
    .h16 (headerFields Config.signatureWord Config.versionOk Config.cmdProxy Config.famInet4 p l)
  | .proxyInet6 p l =>
    .h16 (headerFields Config.signatureWord Config.versionOk Config.cmdProxy Config.famInet6 p l)
  | .rejFamily f p l =>
    .h16 (headerFields Config.signatureWord Config.versionOk Config.cmdProxy f p l)
  | .rejCommand c f p l => .h16 (headerFields Config.signatureWord Config.versionOk c f p l)
  | .rejVersion v c f p l => .h16 (headerFields Config.signatureWord v c f p l)
  | .rejSignature s v c f p l => .h16 (headerFields s v c f p l)
  | .rst => .ev 0b100000#6 0#8
  | .clr => .ev 0b010000#6 0#8
  | .timeout => .ev 0b001000#6 0#8
  | .ioerr => .ev 0b000100#6 0#8
  | .byte b => .ev 0b000010#6 b
  | .eof => .ev 0b000001#6 0#8
  | .noEvent => .ev 0b000000#6 0#8
  | .cfgw v => .cfg 0b01#2 v

/-- The format an encoding stands in. -/
def Code.format : Code → Format
  | .h16 _ => .h16
  | .ev _ _ => .ev
  | .cfg _ _ => .cfg

/-! ## Words numbered as spec/opcode_table.json numbers them -/

/-- The encoding that a table word stands for (R86). A word of 128 bits is `W` of R71. A word of at most 2 bits is
`c` of R78. A word of 3 to 8 bits is `p` of R77: the two tables share the words 0 to 3 of one byte, and the event is
taken (log entry 6). Everything the table gives no bits (`in_data`, `cfg_wdata`) is 0. -/
def codeOfTableWord (nbits w : Nat) : Option Code :=
  if nbits = 128 then (if w < 2 ^ 128 then some (.h16 (BitVec.ofNat 128 w)) else none)
  else if nbits ≤ 2 then (if w < 4 then some (.cfg (BitVec.ofNat 2 w) 0#2) else none)
  else if nbits ≤ 8 then (if w < 64 then some (.ev (BitVec.ofNat 6 w) 0#8) else none)
  else none

/-- The instruction the decoder reads from a table word. -/
def decodeTableWord (nbits w : Nat) : Option Instr :=
  match codeOfTableWord nbits w with
  | none => none
  | some c =>
    match decode c with
    | .ok i => some i
    | .error _ => none

end Sys2Proof
end

