-- ==== Sys2Proof/Machine/State.lean ====
section
/-! DEFINITION. The record `S` of R20, the samples of the input ports of R35, and the reset state of R41. -/

namespace Sys2Proof.Machine

/-- The four states of the sequencer (R23). -/
inductive SeqState where
  | awaitHdr
  | awaitAddr
  | done
  | rejected
  deriving DecidableEq, Repr

/-- The eight error kinds of R200. -/
inductive DecodeError where
  /-- R201. -/
  | incompleteHeader
  /-- R202. -/
  | incompleteAddressBlock
  /-- R203. -/
  | signatureMismatch
  /-- R204. -/
  | unsupportedVersion
  /-- R205. -/
  | unsupportedCommand
  /-- R206. -/
  | unknownAddressFamily
  /-- R207. -/
  | truncatedAddressBlock
  /-- R208. -/
  | timeout
  deriving DecidableEq, Repr

/-- The four dispositions of R31. -/
inductive Disposition where
  | pending
  | accept
  | drop
  | pass
  deriving DecidableEq, Repr

/-- `Header` of R16. -/
structure Header where
  version : Nibble
  command : Nibble
  family : Nibble
  protocol : Nibble
  addressLength : Half
  deriving DecidableEq, Repr

/-- `Endpoints` of R16: octets in wire order, four or sixteen of them in each address. -/
structure Endpoints where
  sourceIp : List Byte
  destinationIp : List Byte
  sourcePort : Half
  destinationPort : Half
  deriving DecidableEq, Repr

/-- The input ports of R35 as sampled at one rising edge of `clk`. -/
structure Pins where
  rst : Bool := false
  clr : Bool := false
  cfgWe : Bool := false
  cfgWdata : BitVec 2 := 0#2
  timeout : Bool := false
  inErr : Bool := false
  inValid : Bool := false
  /-- Meaningful only when `inValid` is set (R35): `reduce` never looks at it otherwise. -/
  inData : Byte := 0#8
  inEof : Bool := false
  deriving DecidableEq, Repr

/-- Why the machine stops with a fault: never. `93_implementation_defined.md` says under U14 that no behaviour of the
block needs a fault, since every header, pin vector and `CFG` value has a defined meaning (R79, R82). -/
inductive Fault where
  deriving DecidableEq, Repr

/-- Why the model gives a situation no meaning. -/
inductive Refusal where
  /-- An instruction that exec does not model yet. Raised by exec's refused arms only, of which there is none. Safe. -/
  | notModelled (mnemonic : String)
  /-- Raised by `cycle` for a cycle without `rst` before the first `RST` (R241, U1): the state is unspecified there.
  Safe: nothing can be proved of an un-reset block. -/
  | beforeFirstReset
  deriving DecidableEq, Repr

/-- The state: the eight elements of R20, and the model's own fields `resetSeen` and `inputs`. -/
structure State where
  /-- R23. -/
  st : SeqState
  /-- R24. -/
  hcnt : BitVec 5
  /-- R25. -/
  acnt : Half
  /-- R21. -/
  hbuf : HeaderBuf
  /-- R22. -/
  abuf : AddrBuf
  /-- R27. -/
  err : BitVec 4
  /-- R28. -/
  ioCause : Bool
  /-- R29: bit 0 `SIGPOL`, bit 1 `CMDPOL`. -/
  cfg : BitVec 2
  /-- The model's own (R241, log entry 3): an `RST` has been seen since power was applied. -/
  resetSeen : Bool
  /-- The model's own (R11, log entry 1): the samples of the input ports still to come, the next cycle's first. -/
  inputs : List Pins
  deriving DecidableEq, Repr

/-- The three outcomes of a step on this machine. -/
abbrev Result := Host.Outcome State Fault Refusal

/-- The column "After `RST`" of R41 (R240). -/
def State.reset : State where
  st := .awaitHdr
  hcnt := 0#5
  acnt := 0#16
  hbuf := Vector.replicate 16 0#8
  abuf := Vector.replicate 36 0#8
  err := 0#4
  ioCause := false
  cfg := 0#2
  resetSeen := true
  inputs := []

end Sys2Proof.Machine
end

