-- ==== Sys2Proof/Machine/Sigv.lean ====
section
/-! DEFINITION. SIGV, the signature validator (R100 to R106). -/

namespace Sys2Proof.Machine

/-- `validate_signature` of R101. It takes any number of bytes, and a number other than twelve is a non-match (R104). -/
def validateSignature (s : List Byte) : Bool := s == Config.signature.toList

/-- The operand of SIGV in the hardware, `hbuf[0..11]` (R100). -/
def signatureBytes (h : HeaderBuf) : List Byte := h.toList.take Config.sigLen

end Sys2Proof.Machine
end

