-- ==== Sys2Proof/Machine/Fhd.lean ====
section
/-! DEFINITION. FHD, the fixed header decoder (R110 to R122). -/

namespace Sys2Proof.Machine

/-- `decode_header` of R110: the checks in DOC00's order, the first failing one decides (R121). -/
def decodeHeader (h : HeaderBuf) : Except DecodeError Header :=
  if validateSignature (signatureBytes h) = false then .error .signatureMismatch
  else
    let version := hiNibble h[12]
    let command := loNibble h[12]
    if version ≠ Config.versionOk then .error .unsupportedVersion
    else if command ≠ Config.cmdProxy then .error .unsupportedCommand
    else
      let family := hiNibble h[13]
      let protocol := loNibble h[13]
      if family ≠ Config.famInet4 ∧ family ≠ Config.famInet6 then .error .unknownAddressFamily
      else
        .ok { version, command, family, protocol, addressLength := be16 h[14] h[15] }

/-- The result that R76 gives a header form: the accepted forms give the header whose fields they carry. -/
def headerOutcome : HeaderForm → BitVec 128 → Except DecodeError Header
  | .proxyInet4, w =>
    .ok ⟨Config.versionOk, Config.cmdProxy, Config.famInet4, protocolField w, addressLengthField w⟩
  | .proxyInet6, w =>
    .ok ⟨Config.versionOk, Config.cmdProxy, Config.famInet6, protocolField w, addressLengthField w⟩
  | .rejFamily, _ => .error .unknownAddressFamily
  | .rejCommand, _ => .error .unsupportedCommand
  | .rejVersion, _ => .error .unsupportedVersion
  | .rejSignature, _ => .error .signatureMismatch

end Sys2Proof.Machine
end

