-- ==== Sys2Proof/Machine/Abd.lean ====
section
/-! DEFINITION. ABD, the address block decoder (R130 to R140), over the operand formats A4 and A6 (R72, R73). -/

namespace Sys2Proof.Machine

/-- The fields of format A4 (R72). -/
def inet4Endpoints (a : List Byte) : Endpoints where
  sourceIp := a.take 4
  destinationIp := (a.drop 4).take 4
  sourcePort := be16 (a.getD 8 0#8) (a.getD 9 0#8)
  destinationPort := be16 (a.getD 10 0#8) (a.getD 11 0#8)

/-- The fields of format A6 (R73). -/
def inet6Endpoints (a : List Byte) : Endpoints where
  sourceIp := a.take 16
  destinationIp := (a.drop 16).take 16
  sourcePort := be16 (a.getD 32 0#8) (a.getD 33 0#8)
  destinationPort := be16 (a.getD 34 0#8) (a.getD 35 0#8)

/-- The least address-block length of a family (R131, R175); a family that is neither has none. -/
def familyMinimum (family : Nibble) : Option Nat :=
  if family = Config.famInet4 then some Config.v4Min
  else if family = Config.famInet6 then some Config.v6Min
  else none

/-- `decode_address_block` of R130: the family first, then the length (R131), then the fields (R132, R133); any other
family is rejected whatever the bytes are (R134). No check on the values (R138). -/
def decodeAddressBlock (family : Nibble) (a : List Byte) : Except DecodeError Endpoints :=
  if family = Config.famInet4 then
    if a.length < Config.v4Min then .error .truncatedAddressBlock else .ok (inet4Endpoints a)
  else if family = Config.famInet6 then
    if a.length < Config.v6Min then .error .truncatedAddressBlock else .ok (inet6Endpoints a)
  else .error .unknownAddressFamily

/-- `decode_address_block_hw` of R135: the hardware's form, from `fam`, `alen` and `abuf` alone. -/
def decodeAddressBlockHw (family : Nibble) (addressLength : Half) (buf : AddrBuf) :
    Except DecodeError Endpoints :=
  if family = Config.famInet4 then
    if addressLength.toNat < Config.v4Min then .error .truncatedAddressBlock
    else .ok (inet4Endpoints buf.toList)
  else if family = Config.famInet6 then
    if addressLength.toNat < Config.v6Min then .error .truncatedAddressBlock
    else .ok (inet6Endpoints buf.toList)
  else .error .unknownAddressFamily

end Sys2Proof.Machine
end

