-- ==== Sys2Proof/Machine/Operands.lean ====
section
/-! DEFINITION. What the sequencer and the output ports read of the state: the internal views of R34, the stream
position of R26, the header view of R32 and the endpoint view of R33. -/

namespace Sys2Proof.Machine

/-- `alen` of R34. -/
def State.alen (s : State) : Half := be16 s.hbuf[14] s.hbuf[15]

/-- `fam` of R34. -/
def State.fam (s : State) : Nibble := hiNibble s.hbuf[13]

/-- `pos` of R26: 17 bits, a function of the two counters. -/
def State.pos (s : State) : BitVec 17 := s.hcnt.setWidth 17 + s.acnt.setWidth 17

/-- The byte of the inbound stream at an offset, as far as the block holds it: `hbuf[i]` once `hcnt > i` (R21) and
`abuf[k]` at offset `16 + k` once `acnt > k` (R22). Bytes not read yet, and the bytes counted and dropped, are not
held. -/
def State.streamByte (s : State) (off : Nat) : Option Byte :=
  if off < Config.hdrLen then (if off < s.hcnt.toNat then s.hbuf[off]? else none)
  else if off - Config.hdrLen < s.acnt.toNat then s.abuf[off - Config.hdrLen]? else none

/-- The header view of R32: all zero unless `st` is DONE. -/
def State.headerView (s : State) : Header :=
  if s.st = .done then
    { version := hiNibble s.hbuf[12], command := loNibble s.hbuf[12]
      family := hiNibble s.hbuf[13], protocol := loNibble s.hbuf[13], addressLength := s.alen }
  else { version := 0#4, command := 0#4, family := 0#4, protocol := 0#4, addressLength := 0#16 }

/-- Octets as one 128-bit port value: the first octet on the wire is the most significant of the occupied part, and
the bits above are zero (R33, D15). -/
def ipPort (octets : List Byte) : BitVec 128 :=
  octets.foldl (fun acc b => acc <<< 8 ||| b.setWidth 128) 0#128

/-- The endpoint ports of R33. -/
structure EndpointPorts where
  srcIp : BitVec 128
  dstIp : BitVec 128
  srcPort : Half
  dstPort : Half
  deriving DecidableEq, Repr

/-- All four endpoint ports at zero (R33). -/
def EndpointPorts.zero : EndpointPorts := ⟨0#128, 0#128, 0#16, 0#16⟩

/-- Endpoints on the ports (R33, D15). -/
def Endpoints.ports (e : Endpoints) : EndpointPorts :=
  ⟨ipPort e.sourceIp, ipPort e.destinationIp, e.sourcePort, e.destinationPort⟩

/-- The endpoint view of R33: chosen by `fam` when `st` is DONE, zero otherwise. In DONE `fam` is 1 or 2 (R40 I3); for
any other value R33 gives nothing and the ports read zero (log entry 5). -/
def State.endpointView (s : State) : EndpointPorts :=
  if s.st = .done then
    if s.fam = Config.famInet4 then (inet4Endpoints s.abuf.toList).ports
    else if s.fam = Config.famInet6 then (inet6Endpoints s.abuf.toList).ports
    else .zero
  else .zero

/-- The caller's result of a finished run (R150): the decoded pair, in DONE only. -/
def State.result (s : State) : Option (Header × Endpoints) :=
  if s.st = .done then
    match decodeHeader s.hbuf, decodeAddressBlockHw s.fam s.alen s.abuf with
    | .ok h, .ok e => some (h, e)
    | _, _ => none
  else none

end Sys2Proof.Machine
end

