-- ==== Sys2Proof/Machine/Flags.lean ====
section
/-! DEFINITION. The status flags of R30, the codes of R23, R31 and R200, the disposition of R31, and all output ports
of R36. Every one is a function of the state only. -/

namespace Sys2Proof.Machine

/-- The encoding of `st` on `st_q` (R23). -/
def SeqState.code : SeqState → BitVec 2
  | .awaitHdr => 0#2
  | .awaitAddr => 1#2
  | .done => 2#2
  | .rejected => 3#2

/-- The code of an error kind (R200). -/
def DecodeError.code : DecodeError → BitVec 4
  | .incompleteHeader => 1#4
  | .incompleteAddressBlock => 2#4
  | .signatureMismatch => 3#4
  | .unsupportedVersion => 4#4
  | .unsupportedCommand => 5#4
  | .unknownAddressFamily => 6#4
  | .truncatedAddressBlock => 7#4
  | .timeout => 8#4

/-- The encoding of `disp` (R31). -/
def Disposition.code : Disposition → BitVec 2
  | .pending => 0#2
  | .accept => 1#2
  | .drop => 2#2
  | .pass => 3#2

/-- `in_ready` of R30. -/
def State.inReady (s : State) : Bool :=
  match s.st with
  | .awaitHdr | .awaitAddr => true
  | .done | .rejected => false

/-- `done` of R30. -/
def State.isDone (s : State) : Bool := s.st == .done

/-- `rejected` of R30. -/
def State.isRejected (s : State) : Bool := s.st == .rejected

/-- `res_valid` of R30: it is `done`. -/
def State.resValid (s : State) : Bool := s.isDone

/-- `SIGPOL`, bit 0 of `CFG` (R29). -/
def State.sigpol (s : State) : Bool := s.cfg.getLsbD 0

/-- `CMDPOL`, bit 1 of `CFG` (R29). -/
def State.cmdpol (s : State) : Bool := s.cfg.getLsbD 1

/-- `disp` of R31, rows in the rule's order. -/
def State.disp (s : State) : Disposition :=
  match s.st with
  | .awaitHdr | .awaitAddr => .pending
  | .done => .accept
  | .rejected =>
    if s.err = DecodeError.signatureMismatch.code ∧ s.sigpol = true then .pass
    else if s.err = DecodeError.unsupportedCommand.code ∧ s.cmdpol = true then .pass
    else .drop

/-- The output ports of R36. -/
structure Outputs where
  inReady : Bool
  stQ : BitVec 2
  done : Bool
  rejected : Bool
  resValid : Bool
  errQ : BitVec 4
  ioCauseQ : Bool
  disp : BitVec 2
  cfgQ : BitVec 2
  pos : BitVec 17
  header : Header
  endpoints : EndpointPorts
  deriving DecidableEq, Repr

/-- What the ports show in a state (R36, D18). -/
def State.outputs (s : State) : Outputs where
  inReady := s.inReady
  stQ := s.st.code
  done := s.isDone
  rejected := s.isRejected
  resValid := s.resValid
  errQ := s.err
  ioCauseQ := s.ioCause
  disp := s.disp.code
  cfgQ := s.cfg
  pos := s.pos
  header := s.headerView
  endpoints := s.endpointView

end Sys2Proof.Machine
end

