-- ==== Sys2Proof/Machine/Ops.lean ====
section
/-! DEFINITION. The shared operations of the sequencer: entry to REJECTED and the two ways out of it, the two buffer
writes, and the two completions of R160 to R162. -/

namespace Sys2Proof.Machine

/-- `raise E` of R210, the single way into REJECTED: `st`, `err` and `io_cause`, and nothing else. `ioerr` says that
the raising event is `IOERR`. -/
def State.raise (e : DecodeError) (ioerr : Bool) (s : State) : State :=
  { s with st := .rejected, err := e.code, ioCause := ioerr }

/-- `RESET` of R240 and R173: every element of R20 at its value of R41. The samples still to come are the
environment's and stay. -/
def State.toReset (s : State) : State := { State.reset with inputs := s.inputs }

/-- `REARM(CFG)` of R242 and R171: as `RESET`, but `CFG` keeps its value. With `RST` it is the only way out of a
terminal state, and it restores nothing of the run (R220). -/
def State.rearm (s : State) : State :=
  { State.reset with cfg := s.cfg, resetSeen := s.resetSeen, inputs := s.inputs }

/-- The buffer write of `BYTE` in AWAIT_HDR (R160): `hbuf[hcnt] <- b`, `hcnt <- hcnt + 1` in five bits (R83). -/
def State.storeHeaderByte (b : Byte) (s : State) : State :=
  { s with hbuf := s.hbuf.setIfInBounds s.hcnt.toNat b, hcnt := s.hcnt + 1#5 }

/-- The buffer write of `BYTE` in AWAIT_ADDR (R162): `abuf[acnt] <- b` while `acnt < 36`, `acnt <- acnt + 1`. -/
def State.storeAddressByte (b : Byte) (s : State) : State :=
  { s with
    abuf := if s.acnt.toNat < Config.abufLen then s.abuf.setIfInBounds s.acnt.toNat b else s.abuf
    acnt := s.acnt + 1#16 }

/-- All sixteen bytes of a header in `hbuf`, as they stand there at the header-completing beat (R111, R160). -/
def State.latchHeader (w : BitVec 128) (s : State) : State :=
  { s with hbuf := headerBytes w, hcnt := 16#5 }

/-- What the sequencer does with an accepted header (R160, R161): on `address_length = 0` it runs ABD on no byte at
once, and otherwise it awaits the address block. -/
def State.acceptHeader (family : Nibble) (addressLength : Half) (s : State) : State :=
  if addressLength = 0#16 then
    match decodeAddressBlock family [] with
    | .error e => s.raise e false
    | .ok _ => { s with st := .done }
  else { s with st := .awaitAddr }

/-- What the sequencer does after an address byte is stored (R162): with the last one it runs ABD. The sum is taken
in seventeen bits (R83), before the counter is written, so `before` is the state before the store. -/
def State.finishAddress (before s : State) : State :=
  if before.acnt.toNat + 1 < before.alen.toNat then s
  else
    match decodeAddressBlockHw s.fam s.alen s.abuf with
    | .ok _ => { s with st := .done }
    | .error e => s.raise e false

/-- The header-completing beat of a header form (R111): the form's word is latched and `k` says what follows. It
exists in AWAIT_HDR only; in another state no header is decoded and nothing changes (log entry 4). -/
def headerBeat (w : BitVec 128) (k : State → State) (s : State) : Result :=
  match s.st with
  | .awaitHdr => .next (k (s.latchHeader w))
  | .awaitAddr | .done | .rejected => .next s

/-- An event that ends a waiting run with an error and is ignored in a terminal state (R164 to R169): `eh` is the kind
raised in AWAIT_HDR and `ea` the kind raised in AWAIT_ADDR. -/
def endRun (eh ea : DecodeError) (ioerr : Bool) (s : State) : Result :=
  match s.st with
  | .awaitHdr => .next (s.raise eh ioerr)
  | .awaitAddr => .next (s.raise ea ioerr)
  | .done | .rejected => .next s

/-- Two parts of one cycle, the second on the state the first leaves. -/
def andThen (r : Result) (f : State → Result) : Result :=
  match r with
  | .next s => f s
  | .fault e => .fault e
  | .refused e => .refused e

end Sys2Proof.Machine
end

