-- ==== Sys2Proof/Machine/HeaderForms.lean ====
section
/-! DEFINITION. The meanings of the six header forms: what the header-completing beat does with a header of that form
(R112 to R119, R160, R161). -/

namespace Sys2Proof.Machine

/-- `PROXY.INET4` (R118): accepted with family 1; on length 0 rejected with error 7 (R161), else AWAIT_ADDR. -/
def execProxyInet4 (protocol : Nibble) (addressLength : Half) (s : State) : Result :=
  headerBeat
    (headerFields Config.signatureWord Config.versionOk Config.cmdProxy Config.famInet4 protocol addressLength)
    (State.acceptHeader Config.famInet4 addressLength) s

/-- `PROXY.INET6` (R119): accepted with family 2. -/
def execProxyInet6 (protocol : Nibble) (addressLength : Half) (s : State) : Result :=
  headerBeat
    (headerFields Config.signatureWord Config.versionOk Config.cmdProxy Config.famInet6 protocol addressLength)
    (State.acceptHeader Config.famInet6 addressLength) s

/-- `REJ.FAMILY` (R116): error 6. -/
def execRejFamily (family protocol : Nibble) (addressLength : Half) (s : State) : Result :=
  headerBeat
    (headerFields Config.signatureWord Config.versionOk Config.cmdProxy family protocol addressLength)
    (State.raise .unknownAddressFamily false) s

/-- `REJ.COMMAND` (R115): error 5, for LOCAL as for any other command. -/
def execRejCommand (command family protocol : Nibble) (addressLength : Half) (s : State) : Result :=
  headerBeat
    (headerFields Config.signatureWord Config.versionOk command family protocol addressLength)
    (State.raise .unsupportedCommand false) s

/-- `REJ.VERSION` (R114): error 4. -/
def execRejVersion (version command family protocol : Nibble) (addressLength : Half) (s : State) : Result :=
  headerBeat (headerFields Config.signatureWord version command family protocol addressLength)
    (State.raise .unsupportedVersion false) s

/-- `REJ.SIGNATURE` (R112): error 3. -/
def execRejSignature (signature : BitVec 96) (version command family protocol : Nibble)
    (addressLength : Half) (s : State) : Result :=
  headerBeat (headerFields signature version command family protocol addressLength)
    (State.raise .signatureMismatch false) s

/-- The instruction that a complete header word stands for, run: the dispatch of R76 (`runHeader_eq_exec` in Laws says
that it is `exec` of the decoded instruction). -/
def runHeader (w : BitVec 128) (s : State) : Result :=
  match classifyHeader w with
  | .proxyInet4 => execProxyInet4 (protocolField w) (addressLengthField w) s
  | .proxyInet6 => execProxyInet6 (protocolField w) (addressLengthField w) s
  | .rejFamily => execRejFamily (familyField w) (protocolField w) (addressLengthField w) s
  | .rejCommand =>
    execRejCommand (commandField w) (familyField w) (protocolField w) (addressLengthField w) s
  | .rejVersion =>
    execRejVersion (versionField w) (commandField w) (familyField w) (protocolField w)
      (addressLengthField w) s
  | .rejSignature =>
    execRejSignature (signatureField w) (versionField w) (commandField w) (familyField w)
      (protocolField w) (addressLengthField w) s

end Sys2Proof.Machine
end

