-- ==== Sys2Proof/Machine/Events.lean ====
section
/-! DEFINITION. The meanings of the seven events and of the configuration write (R159 to R173). -/

namespace Sys2Proof.Machine

/-- `RST` (R173): `RESET`, from any state. -/
def execRst (s : State) : Result := .next s.toReset

/-- `CLR` (R171): `REARM(CFG)`, from any state. -/
def execClr (s : State) : Result := .next s.rearm

/-- `TIMEOUT` (R167, R168, R169): error 8 in both waiting states. -/
def execTimeout (s : State) : Result := endRun .timeout .timeout false s

/-- `IOERR` (R166, R169): error 1 or 2, with `io_cause` set. -/
def execIoerr (s : State) : Result := endRun .incompleteHeader .incompleteAddressBlock true s

/-- `BYTE(b)` in AWAIT_HDR (R160): store, and with the sixteenth byte run the header form that the buffer, this byte
included, holds. -/
def takeHeaderByte (b : Byte) (s : State) : Result :=
  let s1 := s.storeHeaderByte b
  if s1.hcnt < 16#5 then .next s1 else runHeader (headerWord s1.hbuf) s1

/-- `BYTE(b)` in AWAIT_ADDR (R162). -/
def takeAddressByte (b : Byte) (s : State) : Result :=
  .next (s.finishAddress (s.storeAddressByte b))

/-- `BYTE(b)` (R160, R162). In a terminal state `reduce` never gives it (R163); given all the same, it changes nothing
(R170). -/
def execByte (b : Byte) (s : State) : Result :=
  match s.st with
  | .awaitHdr => takeHeaderByte b s
  | .awaitAddr => takeAddressByte b s
  | .done | .rejected => .next s

/-- `EOF` (R164, R165, R169): error 1 or 2, with `io_cause` clear. -/
def execEof (s : State) : Result := endRun .incompleteHeader .incompleteAddressBlock false s

/-- `NONE` (R159): nothing changes. -/
def execNoEvent (s : State) : Result := .next s

/-- `CFGW(v)` (R172): `CFG <- v`, and nothing else. -/
def execCfgw (v : BitVec 2) (s : State) : Result := .next { s with cfg := v }

end Sys2Proof.Machine
end

