-- ==== Sys2Proof/Machine/Dispatch.lean ====
section
/-! DEFINITION. One arm per row of the opcode table. -/

namespace Sys2Proof.Machine

def exec (i : Instr) (s : State) : Host.Outcome State Fault Refusal :=
  match i with
  -- format H16
  | .proxyInet4 p l => Sys2Proof.Machine.execProxyInet4 p l s
  | .proxyInet6 p l => Sys2Proof.Machine.execProxyInet6 p l s
  | .rejFamily f p l => Sys2Proof.Machine.execRejFamily f p l s
  | .rejCommand c f p l => Sys2Proof.Machine.execRejCommand c f p l s
  | .rejVersion v c f p l => Sys2Proof.Machine.execRejVersion v c f p l s
  | .rejSignature g v c f p l => Sys2Proof.Machine.execRejSignature g v c f p l s
  -- format EV
  | .rst => Sys2Proof.Machine.execRst s
  | .clr => Sys2Proof.Machine.execClr s
  | .timeout => Sys2Proof.Machine.execTimeout s
  | .ioerr => Sys2Proof.Machine.execIoerr s
  | .byte b => Sys2Proof.Machine.execByte b s
  | .eof => Sys2Proof.Machine.execEof s
  | .noEvent => Sys2Proof.Machine.execNoEvent s
  -- format CFG
  | .cfgw v => Sys2Proof.Machine.execCfgw v s

end Sys2Proof.Machine
end

