-- ==== Sys2Proof/Machine/Fetch.lean ====
section
/-! DEFINITION. What a cycle samples: the pin vectors of R77 and R78, the event reduction of R158, and how a table
word is placed where the next step fetches. -/

namespace Sys2Proof.Machine

/-- The sample of the next cycle; an environment with nothing more to say drives no input (log entry 1). -/
def State.nextPins (s : State) : Pins := s.inputs.headD {}

/-- The state whose next cycle's sample has been taken. -/
def State.popInput (s : State) : State := { s with inputs := s.inputs.tail }

/-- `beat = in_valid & in_ready` (R77). -/
def beat (s : State) (p : Pins) : Bool := p.inValid && s.inReady

/-- The pin vector `p[5:0] = rst, clr, timeout, in_err, beat, in_eof` (R77). -/
def eventVector (s : State) (p : Pins) : BitVec 6 :=
  BitVec.ofBool p.rst ++ BitVec.ofBool p.clr ++ BitVec.ofBool p.timeout ++ BitVec.ofBool p.inErr ++
    BitVec.ofBool (beat s p) ++ BitVec.ofBool p.inEof

/-- The pin vector `c[1:0] = rst, cfg_we` (R78). -/
def configVector (p : Pins) : BitVec 2 := BitVec.ofBool p.rst ++ BitVec.ofBool p.cfgWe

/-- `reduce(S, In)` of R158, read off the decode map of R77. -/
def reduce (s : State) (p : Pins) : Instr := decodeEvent (eventVector s p) p.inData

/-- `reduce(S, In)` as R158 writes it, a chain of tests; the obligation ReduceFollowsPriority says that it is
`reduce`. -/
def reduceByPriority (s : State) (p : Pins) : Instr :=
  if p.rst then .rst
  else if p.clr then .clr
  else if p.timeout then .timeout
  else if p.inErr then .ioerr
  else if p.inValid && s.inReady then .byte p.inData
  else if p.inEof then .eof
  else .noEvent

/-- The sample that shows an encoding of format EV or CFG on the pins. -/
def pinsOfEvent (p : BitVec 6) (data : Byte) : Pins :=
  { rst := p.getLsbD 5, clr := p.getLsbD 4, timeout := p.getLsbD 3, inErr := p.getLsbD 2
    inValid := p.getLsbD 1, inData := data, inEof := p.getLsbD 0 }

@[inherit_doc pinsOfEvent] def pinsOfConfig (c v : BitVec 2) : Pins :=
  { rst := c.getLsbD 1, cfgWe := c.getLsbD 0, cfgWdata := v }

/-- The state whose very next cycle meets an encoding. For EV and CFG the pins are put before the samples still to
come. For H16 the block is re-armed with the header's first fifteen bytes taken, and the sixteenth is offered: the
next cycle is the header-completing beat (log entry 7). -/
def State.place (s : State) : Code → State
  | .ev p d => { s with resetSeen := true, inputs := pinsOfEvent p d :: s.inputs }
  | .cfg c v => { s with resetSeen := true, inputs := pinsOfConfig c v :: s.inputs }
  | .h16 w =>
    { s.rearm with
      resetSeen := true
      hbuf := (headerBytes w).set 15 0#8
      hcnt := 15#5
      inputs := { inValid := true, inData := (headerBytes w)[15] } :: s.inputs }

/-- The state whose very next cycle meets a table word; a word of no row leaves the state as it is. -/
def State.placeTableWord (s : State) (nbits w : Nat) : State :=
  match codeOfTableWord nbits w with
  | some c => s.place c
  | none => s

end Sys2Proof.Machine
end

