-- ==== Sys2Proof/Machine/Cycle.lean ====
section
/-! DEFINITION. The cycle function of R151. -/

namespace Sys2Proof.Machine

/-- The configuration write of a cycle, in parallel with its event (R78, R151): the decoder of format CFG says whether
there is one. -/
def configPart (p : Pins) (s : State) : Result :=
  match decodeConfig (configVector p) p.cfgWdata with
  | .ok i => exec i s
  | .error _ => .next s

/-- `cycle(S, In)` of R151: the event of R158, then the configuration write of R172. No event but `RST` writes `CFG`
(R151), and with `rst = 1` there is no configuration write (R78). Before the first `RST` only `RST` is a step
(R241). -/
def cycle (s : State) (p : Pins) : Result :=
  if s.resetSeen || p.rst then andThen (exec (reduce s p) s) (configPart p)
  else .refused .beforeFirstReset

end Sys2Proof.Machine
end

