-- ==== Sys2Proof/Machine/Instances.lean ====
section
/-! DEFINITION. A platform of `N_INST` instances (R61, R230): the product of independent copies, in the order of a list
of any length. -/

namespace Sys2Proof.Machine

/-- One clock cycle of instance `k`; `none` where there is no such instance or its step gives no next state. -/
def stepInstance (k : Nat) (platform : List State) : Option (List State) :=
  match platform[k]? with
  | none => none
  | some s =>
    match step s with
    | .next s' => some (platform.set k s')
    | .fault _ => none
    | .refused _ => none

end Sys2Proof.Machine
end

