-- ==== Sys2Proof/Machine/Script.lean ====
section
/-! DEFINITION. The script notation of R84 and the pseudo-forms of R85, as samples of the input ports and as lists of
stream bytes. They are notation: the block knows nothing of them. -/

namespace Sys2Proof.Machine

/-- The script word `RST`. -/
def Pins.scriptRst : Pins := { rst := true }

/-- The script word `CLR`. -/
def Pins.scriptClr : Pins := { clr := true }

/-- The script word `TIMEOUT`. -/
def Pins.scriptTimeout : Pins := { timeout := true }

/-- The script word `IOERR`. -/
def Pins.scriptIoerr : Pins := { inErr := true }

/-- The script word `EOF`. -/
def Pins.scriptEof : Pins := { inEof := true }

/-- The script word `BYTE xx`. -/
def Pins.scriptByte (b : Byte) : Pins := { inValid := true, inData := b }

/-- `CFGW v` written on the line of another event; on a line of its own it is `CFGW v` beside `NONE`. -/
def Pins.withCfgw (v : BitVec 2) (p : Pins) : Pins := { p with cfgWe := true, cfgWdata := v }

/-- The script word `SEND`: one byte a cycle. -/
def scriptSend (bytes : List Byte) : List Pins := bytes.map Pins.scriptByte

/-- The script word `NONE n`. -/
def scriptNone (n : Nat) : List Pins := List.replicate n {}

/-- The two bytes `hi(n) lo(n)` of R85, in wire order. -/
def wireHalf (n : Half) : List Byte := [n.extractLsb' 8 8, n.extractLsb' 0 8]

/-- The bytes of `HDR` (R85). -/
def scriptHdr (version command family protocol : Nibble) (len : Half) : List Byte :=
  Config.signature.toList ++ [version ++ command, family ++ protocol] ++ wireHalf len

/-- The bytes of the address fields: format A4 or A6 according to the octets given (R72, R73). -/
def wireEndpoints (e : Endpoints) : List Byte :=
  e.sourceIp ++ e.destinationIp ++ wireHalf e.sourcePort ++ wireHalf e.destinationPort

/-- The bytes of the pseudo-form `PROXY.INET4` of R85, with `pad` zero bytes after the fields; `protocol` 1 is
`PROXY.TCP4`. -/
def preambleInet4 (e : Endpoints) (protocol : Nibble := 1#4) (pad : Nat := 0) : List Byte :=
  scriptHdr Config.versionOk Config.cmdProxy Config.famInet4 protocol
    (BitVec.ofNat 16 (Config.v4Min + pad)) ++ wireEndpoints e ++ List.replicate pad 0#8

/-- The bytes of the pseudo-form `PROXY.INET6` of R85; `protocol` 1 is `PROXY.TCP6`. -/
def preambleInet6 (e : Endpoints) (protocol : Nibble := 1#4) (pad : Nat := 0) : List Byte :=
  scriptHdr Config.versionOk Config.cmdProxy Config.famInet6 protocol
    (BitVec.ofNat 16 (Config.v6Min + pad)) ++ wireEndpoints e ++ List.replicate pad 0#8

end Sys2Proof.Machine
end

