-- ==== Sys2Proof/Machine/Outcome.lean ====
section
/-! DEFINITION. The closed form of a whole run (R176): what a run reports, as a function of the bytes and of the event
that ends them. -/

namespace Sys2Proof.Machine

/-- The terminator `t` of R176. -/
inductive Terminator where
  | eof
  | ioerr
  | timeout
  deriving DecidableEq, Repr

/-- The sample that delivers a terminator. -/
def Terminator.pins : Terminator → Pins
  | .eof => .scriptEof
  | .ioerr => .scriptIoerr
  | .timeout => .scriptTimeout

/-- What R176 says of the end of a run: `st`, `err`, `io_cause`, `pos`, and in DONE the decoded pair. -/
structure RunOutcome where
  st : SeqState
  err : BitVec 4
  ioCause : Bool
  pos : Nat
  result : Option (Header × Endpoints)
  deriving DecidableEq, Repr

/-- The outcome of a run that stops in a waiting state after `n` bytes (R176). -/
def shortOutcome (waiting : SeqState) (kind : DecodeError) (n : Nat) : Option Terminator → RunOutcome
  | some .eof => ⟨.rejected, kind.code, false, n, none⟩
  | some .ioerr => ⟨.rejected, kind.code, true, n, none⟩
  | some .timeout => ⟨.rejected, DecodeError.timeout.code, false, n, none⟩
  | none => ⟨waiting, 0#4, false, n, none⟩

/-- `outcome(s, t)` of R176. -/
def outcome (bytes : List Byte) (t : Option Terminator) : RunOutcome :=
  match headerOfList (bytes.take Config.hdrLen) with
  | none => shortOutcome .awaitHdr .incompleteHeader bytes.length t
  | some hb =>
    match decodeHeader hb with
    | .error e => ⟨.rejected, e.code, false, Config.hdrLen, none⟩
    | .ok h =>
      let l := h.addressLength.toNat
      let a := bytes.drop Config.hdrLen
      if l = 0 then ⟨.rejected, DecodeError.truncatedAddressBlock.code, false, Config.hdrLen, none⟩
      else if a.length < l then
        shortOutcome .awaitAddr .incompleteAddressBlock bytes.length t
      else
        match decodeAddressBlock h.family (a.take l) with
        | .ok e => ⟨.done, 0#4, false, Config.hdrLen + l, some (h, e)⟩
        | .error e => ⟨.rejected, e.code, false, Config.hdrLen + l, none⟩

/-- What a state reports of the run it ends or waits in. -/
def State.runOutcome (s : State) : RunOutcome := ⟨s.st, s.err, s.ioCause, s.pos.toNat, s.result⟩

/-- The samples of a stream source that stalls at will: `none` is a cycle without a byte (R53, R176). -/
def offerPins : Option Byte → Pins
  | none => {}
  | some b => .scriptByte b

/-- The samples of R176's environment: the offers, then the terminator if there is one. -/
def runInputs (offers : List (Option Byte)) (t : Option Terminator) : List Pins :=
  offers.map offerPins ++ (t.map Terminator.pins).toList

end Sys2Proof.Machine
end

