-- ==== Sys2Proof/Safety.lean ====
section
/-! DEFINITION. The terms claims are stated in: the states of a run, the invariants of R40, and the environments that
keep the rules of R248 to R252. -/

namespace Sys2Proof.Machine

/-- The terminal states (R12, R170). -/
abbrev State.terminal (s : State) : Prop := s.st = .done ∨ s.st = .rejected

/-- The waiting states (R30): those in which `in_ready = 1`. -/
abbrev State.waiting (s : State) : Prop := s.st = .awaitHdr ∨ s.st = .awaitAddr

/-- A state from which a run starts (R12, R242): re-arming it changes nothing. -/
abbrev State.armed (s : State) : Prop := s.rearm = s

/-- The header in `hbuf` is one that FHD accepts, and `alen` is its length (R40 I2, I3). -/
def State.headerAccepted (s : State) : Prop :=
  ∃ h, decodeHeader s.hbuf = .ok h ∧ h.addressLength = s.alen

/-- The invariants of R40. -/
structure State.Inv (s : State) : Prop where
  awaitHdr : s.st = .awaitHdr → s.hcnt.toNat ≤ 15 ∧ s.acnt = 0#16 ∧ s.err = 0#4 ∧ s.ioCause = false
  awaitAddr : s.st = .awaitAddr → s.hcnt = 16#5 ∧ s.headerAccepted ∧ 1 ≤ s.alen.toNat ∧
    s.acnt.toNat < s.alen.toNat ∧ s.err = 0#4 ∧ s.ioCause = false
  done : s.st = .done → s.hcnt = 16#5 ∧ s.headerAccepted ∧ s.acnt = s.alen ∧
    ((s.fam = 1#4 ∧ 12 ≤ s.alen.toNat) ∨ (s.fam = 2#4 ∧ 36 ≤ s.alen.toNat)) ∧
    s.err = 0#4 ∧ s.ioCause = false
  rejected : s.st = .rejected → 1 ≤ s.err.toNat ∧ s.err.toNat ≤ 8 ∧
    (s.ioCause = true → s.err = 1#4 ∨ s.err = 2#4)
  errZero : s.err = 0#4 ↔ s.st ≠ .rejected
  hbufTail : ∀ i : Fin 16, s.hcnt.toNat ≤ i.val → s.hbuf[i] = 0#8
  abufTail : ∀ k : Fin 36, min s.acnt.toNat 36 ≤ k.val → s.abuf[k] = 0#8
  posSum : s.pos.toNat = s.hcnt.toNat + s.acnt.toNat ∧ s.pos.toNat ≤ 65551
  errOne : s.err = 1#4 → s.hcnt.toNat ≤ 15
  errHeader : (s.err = 3#4 ∨ s.err = 4#4 ∨ s.err = 5#4 ∨ s.err = 6#4) → s.hcnt = 16#5 ∧ s.acnt = 0#16
  errTwo : s.err = 2#4 → s.hcnt = 16#5 ∧ s.acnt.toNat < s.alen.toNat
  errSeven : s.err = 7#4 → s.hcnt = 16#5 ∧ s.acnt = s.alen

/-- The byte offered in a cycle is taken (R52). -/
def taken (s : State) (p : Pins) : Bool :=
  match reduce s p with
  | .byte _ => s.inReady
  | _ => false

/-- The stream source may be changed in this cycle (R250). -/
def mayChangeStream (s : State) (p : Pins) : Bool := p.rst || p.clr || !s.inReady

/-- R251: a refused byte stays offered in the next cycle, unless the stream source may be changed. -/
def holdsRefusedByte (s : State) (p q : Pins) : Bool :=
  !p.inValid || taken s p || mayChangeStream s p || (q.inValid && q.inData == p.inData)

/-- R249: `in_eof` rises only with no byte offered, and stays, with none offered, while the block still waits. -/
def holdsEof (s : State) (p : Pins) : Bool := !p.inEof || !p.inValid || mayChangeStream s p

@[inherit_doc holdsEof] def holdsEofNext (s s' : State) (p q : Pins) : Bool :=
  !p.inEof || mayChangeStream s p || !s'.inReady || (q.inEof && !q.inValid)

/-- An environment that keeps R249 and R251 through the samples given (R179, R250). -/
def conforming : State → List Pins → Bool
  | _, [] => true
  | s, [p] => holdsEof s p
  | s, p :: q :: rest =>
    holdsEof s p && holdsRefusedByte s p q &&
      match cycle s p with
      | .next s' => holdsEofNext s s' p q && conforming s' (q :: rest)
      | .fault _ => false
      | .refused _ => false

/-- R252: no configuration write in the samples given. -/
def quietConfig (inputs : List Pins) : Bool := inputs.all fun p => !p.cfgWe

/-- R248: a terminator comes somewhere in the samples given. -/
def boundedWait (inputs : List Pins) : Bool := inputs.any fun p => p.timeout || p.inErr || (p.inEof && !p.inValid)

end Sys2Proof.Machine
end

