-- ==== Sys2Proof/Certificates/Slice0/Obligations.lean ====
section
/-! DEFINITION. The statements for the provers. -/

open Sys2Proof Sys2Proof.Machine

/-! ## Encodings -/

/-- Words written out from R71, R77 and R78 decode to the instructions they stand for (R76). -/
def Obligations.HandWrittenWordsDecode : Prop :=
  decode (.h16 0x0D0A0D0A000D0A51524F540A2111000C#128) = .ok (.proxyInet4 1#4 12#16) ∧
  decode (.h16 0x0D0A0D0A000D0A51524F540A21210024#128) = .ok (.proxyInet6 1#4 36#16) ∧
  decode (.h16 0x0D0A0D0A000D0A51524F540A213100D8#128) = .ok (.rejFamily 3#4 1#4 216#16) ∧
  decode (.h16 0x0D0A0D0A000D0A51524F540A20000000#128) = .ok (.rejCommand 0#4 0#4 0#4 0#16) ∧
  decode (.h16 0x0D0A0D0A000D0A51524F540A1111000C#128) = .ok (.rejVersion 1#4 1#4 1#4 1#4 12#16) ∧
  decode (.ev 0b100000#6 0#8) = .ok .rst ∧
  decode (.ev 0b000010#6 0x0C#8) = .ok (.byte 0x0C#8) ∧
  decode (.cfg 0b01#2 0b10#2) = .ok (.cfgw 0b10#2)

/-- Decoding an encoded well-formed instruction gives it back, for every instruction and every operand value. -/
def Obligations.DecodeEncodeAgree : Prop :=
  ∀ i : Instr, i.wellFormed = true → decode (encode i) = .ok i

/-- Every one of the 2^128 header words decodes to a well-formed instruction whose encoding is that very word. -/
def Obligations.HeaderDecodeLosesNoBit : Prop :=
  ∀ w : BitVec 128, (decodeHeaderWord w).wellFormed = true ∧ encode (decodeHeaderWord w) = .h16 w

/-- The match and mask rows of R76 and the step list of R110 classify every header alike, with the same fields. -/
def Obligations.HeaderMapAgreesWithDecoderSteps : Prop :=
  ∀ h : HeaderBuf, decodeHeader h = headerOutcome (classifyHeader (headerWord h)) (headerWord h)

/-- The event rows of R77 and the chain of tests of R158 reduce every sample of the pins to the same event. -/
def Obligations.ReduceFollowsPriority : Prop :=
  ∀ (s : State) (p : Pins), reduce s p = reduceByPriority s p

/-- R78: the configuration write is there exactly when `rst = 0` and `cfg_we = 1`. -/
def Obligations.ConfigWriteDecoded : Prop :=
  ∀ (p : Pins) (v : BitVec 2),
    (p.rst = false ∧ p.cfgWe = true → decodeConfig (configVector p) v = .ok (.cfgw v)) ∧
    (p.rst = true → decodeConfig (configVector p) v = .error .configWriteUnderReset) ∧
    (p.rst = false ∧ p.cfgWe = false → decodeConfig (configVector p) v = .error .noConfigWrite)

/-! ## SIGV and FHD -/

/-- R101 and R104: `validate_signature` holds of exactly one operand, and of no operand of another length. -/
def Obligations.SignatureComparedWhole : Prop :=
  ∀ s : List Byte, validateSignature s = true ↔
    s = [0x0D#8, 0x0A#8, 0x0D#8, 0x0A#8, 0x00#8, 0x0D#8, 0x0A#8, 0x51#8, 0x52#8, 0x4F#8, 0x54#8, 0x0A#8]

/-- R105 (a): in any header with the right signature, flipping any one of its 96 bits gives `SignatureMismatch`. -/
def Obligations.SignatureBitFlipRejected : Prop :=
  ∀ (h : HeaderBuf) (i : Fin 12) (j : Fin 8), validateSignature (signatureBytes h) = true →
    decodeHeader (h.setIfInBounds i.val (h[i.val] ^^^ BitVec.twoPow 8 j.val)) = .error .signatureMismatch

/-- R121: a header is accepted exactly when the signature, byte 12 and the family nibble are right, and the record then
holds 2, 1, the two nibbles of byte 13 and the big-endian length. -/
def Obligations.AcceptedHeadersExactly : Prop :=
  ∀ (h : HeaderBuf) (hd : Header), decodeHeader h = .ok hd ↔
    (validateSignature (signatureBytes h) = true ∧ h[12] = 0x21#8 ∧
      (hiNibble h[13] = 1#4 ∨ hiNibble h[13] = 2#4) ∧
      hd.version = 2#4 ∧ hd.command = 1#4 ∧ hd.family = hiNibble h[13] ∧ hd.protocol = loNibble h[13] ∧
      hd.addressLength.toNat = 256 * h[14].toNat + h[15].toNat)

/-- R110: the first failing check decides. When several fields are wrong the error is the first of the four, in this order, whatever else the header
holds; a header with none of them wrong gives the record. -/
def Obligations.HeaderErrorPriority : Prop :=
  ∀ h : HeaderBuf,
    (validateSignature (signatureBytes h) = false → decodeHeader h = .error .signatureMismatch) ∧
    (validateSignature (signatureBytes h) = true → hiNibble h[12] ≠ 2#4 →
      decodeHeader h = .error .unsupportedVersion) ∧
    (validateSignature (signatureBytes h) = true → hiNibble h[12] = 2#4 → loNibble h[12] ≠ 1#4 →
      decodeHeader h = .error .unsupportedCommand) ∧
    (validateSignature (signatureBytes h) = true → hiNibble h[12] = 2#4 → loNibble h[12] = 1#4 →
      hiNibble h[13] ≠ 1#4 → hiNibble h[13] ≠ 2#4 → decodeHeader h = .error .unknownAddressFamily) ∧
    (validateSignature (signatureBytes h) = true → hiNibble h[12] = 2#4 → loNibble h[12] = 1#4 →
      hiNibble h[13] = 1#4 ∨ hiNibble h[13] = 2#4 →
      decodeHeader h = .ok ⟨2#4, 1#4, hiNibble h[13], loNibble h[13], be16 h[14] h[15]⟩)

/-! ## ABD -/

/-- R132: the IPv4 fields of any block of twelve bytes or more, whatever follows the twelve. -/
def Obligations.Inet4BlockDecoded : Prop :=
  ∀ (a0 a1 a2 a3 a4 a5 a6 a7 a8 a9 a10 a11 : Byte) (rest : List Byte), ∃ e : Endpoints,
    decodeAddressBlock 1#4 ([a0, a1, a2, a3, a4, a5, a6, a7, a8, a9, a10, a11] ++ rest) = .ok e ∧
    e.sourceIp = [a0, a1, a2, a3] ∧ e.destinationIp = [a4, a5, a6, a7] ∧
    e.sourcePort.toNat = 256 * a8.toNat + a9.toNat ∧
    e.destinationPort.toNat = 256 * a10.toNat + a11.toNat

/-- R133: the IPv6 fields of any block of thirty-six bytes or more, whatever follows the thirty-six. -/
def Obligations.Inet6BlockDecoded : Prop :=
  ∀ (src dst : Vector Byte 16) (a32 a33 a34 a35 : Byte) (rest : List Byte), ∃ e : Endpoints,
    decodeAddressBlock 2#4 (src.toList ++ dst.toList ++ [a32, a33, a34, a35] ++ rest) = .ok e ∧
    e.sourceIp = src.toList ∧ e.destinationIp = dst.toList ∧
    e.sourcePort.toNat = 256 * a32.toNat + a33.toNat ∧
    e.destinationPort.toNat = 256 * a34.toNat + a35.toNat

/-- R131 and R134: a block shorter than its family's minimum is `TruncatedAddressBlock`, never a partial parse, and one
that is long enough is decoded; every other family is `UnknownAddressFamily`, whatever the bytes are. -/
def Obligations.BlockFamilyAndLengthChecked : Prop :=
  ∀ a : List Byte,
    (a.length < 12 → decodeAddressBlock 1#4 a = .error .truncatedAddressBlock) ∧
    (a.length < 36 → decodeAddressBlock 2#4 a = .error .truncatedAddressBlock) ∧
    (12 ≤ a.length → ∃ e, decodeAddressBlock 1#4 a = .ok e) ∧
    (36 ≤ a.length → ∃ e, decodeAddressBlock 2#4 a = .ok e) ∧
    ∀ family : Nibble, family ≠ 1#4 → family ≠ 2#4 →
      decodeAddressBlock family a = .error .unknownAddressFamily

/-- R135: the hardware's decoder over `fam`, `alen` and `abuf` is the decoder of the block itself. -/
def Obligations.HardwareAddressDecoderAgrees : Prop :=
  ∀ (family : Nibble) (a : List Byte) (buf : AddrBuf), a.length ≤ 65535 →
    (∀ k : Fin 36, k.val < a.length → a[k.val]? = some buf[k]) →
    decodeAddressBlock family a = decodeAddressBlockHw family (BitVec.ofNat 16 a.length) buf

/-- R138: encoding endpoints and decoding them is the identity, for every address and port of either family. -/
def Obligations.EndpointsRoundTrip : Prop :=
  ∀ (e : Endpoints) (rest : List Byte),
    (e.sourceIp.length = 4 ∧ e.destinationIp.length = 4 →
      decodeAddressBlock 1#4 (wireEndpoints e ++ rest) = .ok e) ∧
    (e.sourceIp.length = 16 ∧ e.destinationIp.length = 16 →
      decodeAddressBlock 2#4 (wireEndpoints e ++ rest) = .ok e)

/-! ## The header forms -/

/-- R118: a `PROXY.INET4` header with a length of at least 1 completes in AWAIT_ADDR, its sixteen bytes in `hbuf`. That
a header form is executed as its header-completing beat, all sixteen bytes at once, is the model's choice (log entry
4). -/
def Obligations.ProxyInet4Accepted : Prop :=
  ∀ (s : State) (protocol : Nibble) (l : Half), s.st = .awaitHdr → l ≠ 0#16 →
    exec (.proxyInet4 protocol l) s = .next { s with
      st := .awaitAddr
      hcnt := 16#5
      hbuf := #v[0x0D#8, 0x0A#8, 0x0D#8, 0x0A#8, 0x00#8, 0x0D#8, 0x0A#8, 0x51#8, 0x52#8, 0x4F#8, 0x54#8, 0x0A#8,
        0x21#8, 1#4 ++ protocol, l.extractLsb' 8 8, l.extractLsb' 0 8] }

/-- R119: a `PROXY.INET6` header with a length of at least 1 completes in AWAIT_ADDR. Executed as its
header-completing beat by the model's choice (log entry 4). -/
def Obligations.ProxyInet6Accepted : Prop :=
  ∀ (s : State) (protocol : Nibble) (l : Half), s.st = .awaitHdr → l ≠ 0#16 →
    exec (.proxyInet6 protocol l) s = .next { s with
      st := .awaitAddr
      hcnt := 16#5
      hbuf := #v[0x0D#8, 0x0A#8, 0x0D#8, 0x0A#8, 0x00#8, 0x0D#8, 0x0A#8, 0x51#8, 0x52#8, 0x4F#8, 0x54#8, 0x0A#8,
        0x21#8, 2#4 ++ protocol, l.extractLsb' 8 8, l.extractLsb' 0 8] }

/-- R161: an accepted header of length 0 goes straight to REJECTED with error 7 at the sixteenth byte. That a header
form is executed as its header-completing beat is the model's choice (log entry 4), here and in the next four
statements. -/
def Obligations.EmptyAddressBlockRejected : Prop :=
  ∀ (s : State) (protocol : Nibble), s.st = .awaitHdr →
    (∃ t, exec (.proxyInet4 protocol 0#16) s = .next t ∧
      t = { s with st := .rejected, err := 7#4, ioCause := false, hcnt := 16#5, hbuf := t.hbuf } ∧
      headerWord t.hbuf = 0x0D0A0D0A000D0A51524F540A#96 ++ 0x21#8 ++ 1#4 ++ protocol ++ 0#16) ∧
    (∃ t, exec (.proxyInet6 protocol 0#16) s = .next t ∧
      t = { s with st := .rejected, err := 7#4, ioCause := false, hcnt := 16#5, hbuf := t.hbuf } ∧
      headerWord t.hbuf = 0x0D0A0D0A000D0A51524F540A#96 ++ 0x21#8 ++ 2#4 ++ protocol ++ 0#16)

/-- R112: a `REJ.SIGNATURE` header ends in REJECTED with error 3, and `disp` follows `SIGPOL`. -/
def Obligations.WrongSignatureRejected : Prop :=
  ∀ (s : State) (g : BitVec 96) (v c f p : Nibble) (l : Half), s.st = .awaitHdr →
    ∃ t, exec (.rejSignature g v c f p l) s = .next t ∧
      t = { s with st := .rejected, err := 3#4, ioCause := false, hcnt := 16#5, hbuf := t.hbuf } ∧
      headerWord t.hbuf = g ++ v ++ c ++ f ++ p ++ l ∧
      t.disp = (if s.cfg.getLsbD 0 = true then .pass else .drop)

/-- R114: a `REJ.VERSION` header ends in REJECTED with error 4, and `disp` is DROP whatever `CFG` is. -/
def Obligations.WrongVersionRejected : Prop :=
  ∀ (s : State) (v c f p : Nibble) (l : Half), s.st = .awaitHdr →
    ∃ t, exec (.rejVersion v c f p l) s = .next t ∧
      t = { s with st := .rejected, err := 4#4, ioCause := false, hcnt := 16#5, hbuf := t.hbuf } ∧
      headerWord t.hbuf = 0x0D0A0D0A000D0A51524F540A#96 ++ v ++ c ++ f ++ p ++ l ∧
      t.disp = .drop

/-- R115: a `REJ.COMMAND` header ends in REJECTED with error 5, and `disp` follows `CMDPOL`. -/
def Obligations.WrongCommandRejected : Prop :=
  ∀ (s : State) (c f p : Nibble) (l : Half), s.st = .awaitHdr →
    ∃ t, exec (.rejCommand c f p l) s = .next t ∧
      t = { s with st := .rejected, err := 5#4, ioCause := false, hcnt := 16#5, hbuf := t.hbuf } ∧
      headerWord t.hbuf = 0x0D0A0D0A000D0A51524F540A#96 ++ 2#4 ++ c ++ f ++ p ++ l ∧
      t.disp = (if s.cfg.getLsbD 1 = true then .pass else .drop)

/-- R116: a `REJ.FAMILY` header ends in REJECTED with error 6, `disp` is DROP, and no address byte is taken. -/
def Obligations.WrongFamilyRejected : Prop :=
  ∀ (s : State) (f p : Nibble) (l : Half), s.st = .awaitHdr →
    ∃ t, exec (.rejFamily f p l) s = .next t ∧
      t = { s with st := .rejected, err := 6#4, ioCause := false, hcnt := 16#5, hbuf := t.hbuf } ∧
      headerWord t.hbuf = 0x0D0A0D0A000D0A51524F540A#96 ++ 0x21#8 ++ f ++ p ++ l ∧
      t.disp = .drop

/-! ## The events -/

/-- R240 and R41: `RST` gives every element its reset value, from any state. That `inputs` stays and
`resetSeen` is set is the model's choice: they are its own fields (log entries 1 and 3). -/
def Obligations.RstGivesResetState : Prop :=
  ∀ s : State, ∃ t, exec .rst s = .next t ∧ t.st = .awaitHdr ∧ t.hcnt = 0#5 ∧ t.acnt = 0#16 ∧
    (∀ i : Fin 16, t.hbuf[i] = 0#8) ∧ (∀ k : Fin 36, t.abuf[k] = 0#8) ∧ t.err = 0#4 ∧
    t.ioCause = false ∧ t.cfg = 0#2 ∧ t.resetSeen = true ∧ t.inputs = s.inputs

/-- R41: what the output ports show right after `RST`. -/
def Obligations.ResetOutputs : Prop :=
  State.reset.outputs =
    { inReady := true, stQ := 0#2, done := false, rejected := false, resValid := false, errQ := 0#4,
      ioCauseQ := false, disp := 0#2, cfgQ := 0#2, pos := 0#17
      header := ⟨0#4, 0#4, 0#4, 0#4, 0#16⟩, endpoints := ⟨0#128, 0#128, 0#16, 0#16⟩ }

/-- R173: with `rst` high the state after the edge is `RESET`, whatever else is asserted and whatever the state. -/
def Obligations.ResetWinsOverEverything : Prop :=
  ∀ (s : State) (p : Pins), p.rst = true → cycle s p = .next { State.reset with inputs := s.inputs }

/-- R171: `CLR` gives the reset value to every element but `CFG`, from any state, and wins over a byte offered in the
same cycle. That `resetSeen` and `inputs` stay is the model's choice: they are its own fields (log entries 3 and 1), and
no rule of the spec. -/
def Obligations.ClrRearmsKeepingConfig : Prop :=
  (∀ (s : State) (p : Pins), p.rst = false → p.clr = true → reduce s p = .clr) ∧
  ∀ s : State, ∃ t, exec .clr s = .next t ∧ t.st = .awaitHdr ∧ t.hcnt = 0#5 ∧ t.acnt = 0#16 ∧
    (∀ i : Fin 16, t.hbuf[i] = 0#8) ∧ (∀ k : Fin 36, t.abuf[k] = 0#8) ∧ t.err = 0#4 ∧
    t.ioCause = false ∧ t.cfg = s.cfg ∧ t.resetSeen = s.resetSeen ∧ t.inputs = s.inputs

/-- R159: `NONE` changes nothing, and a byte offered in a waiting state never gives `NONE`. -/
def Obligations.NoneChangesNothing : Prop :=
  (∀ s : State, exec .noEvent s = .next s) ∧
    ∀ (s : State) (p : Pins), s.waiting → p.inValid = true → reduce s p ≠ .noEvent

/-- R160: each of the first fifteen bytes is stored at `hbuf[hcnt]`, counted, and checked against nothing. -/
def Obligations.HeaderByteStored : Prop :=
  ∀ (s : State) (b : Byte), s.st = .awaitHdr → s.hcnt.toNat < 15 →
    ∃ t, exec (.byte b) s = .next t ∧
      t = { s with hcnt := t.hcnt, hbuf := t.hbuf } ∧
      t.hcnt.toNat = s.hcnt.toNat + 1 ∧
      ∀ i : Fin 16, t.hbuf[i] = if i.val = s.hcnt.toNat then b else s.hbuf[i]

/-- R160 and R161: the sixteenth byte is stored and `decode_header` runs on the buffer with it. An error is raised; an
accepted header of length 0 raises error 7; any other accepted header goes on to AWAIT_ADDR. -/
def Obligations.HeaderCompletingBeat : Prop :=
  ∀ (s : State) (b : Byte) (h : HeaderBuf), s.st = .awaitHdr → s.hcnt = 15#5 → h = s.hbuf.set 15 b →
    exec (.byte b) s = .next
      (match decodeHeader h with
        | .error e => { s with st := .rejected, hcnt := 16#5, hbuf := h, err := e.code, ioCause := false }
        | .ok hd =>
          if hd.addressLength = 0#16 then
            { s with st := .rejected, hcnt := 16#5, hbuf := h, err := 7#4, ioCause := false }
          else { s with st := .awaitAddr, hcnt := 16#5, hbuf := h })

/-- The header-completing beat runs the instruction that the sixteen bytes decode to (R76, R160). -/
def Obligations.HeaderBeatRunsDecodedForm : Prop :=
  ∀ (s : State) (b : Byte), s.st = .awaitHdr → s.hcnt = 15#5 →
    exec (.byte b) s = exec (decodeHeaderWord (headerWord (s.hbuf.set 15 b))) s

/-- R162: an address byte is stored at `abuf[acnt]` while `acnt < 36` and counted; with the last byte ABD runs on the
buffer with it, and the run ends in DONE or with its error. -/
def Obligations.AddressByteTaken : Prop :=
  ∀ (s : State) (b : Byte), s.st = .awaitAddr → s.acnt.toNat < s.alen.toNat →
    ∃ t, exec (.byte b) s = .next t ∧
      t = { s with st := t.st, err := t.err, ioCause := t.ioCause, acnt := t.acnt, abuf := t.abuf } ∧
      t.acnt.toNat = s.acnt.toNat + 1 ∧
      (∀ k : Fin 36, t.abuf[k] = if k.val = s.acnt.toNat then b else s.abuf[k]) ∧
      (if s.acnt.toNat + 1 < s.alen.toNat then
          t.st = .awaitAddr ∧ t.err = s.err ∧ t.ioCause = s.ioCause
        else
          match decodeAddressBlockHw s.fam s.alen t.abuf with
          | .ok _ => t.st = .done ∧ t.err = s.err ∧ t.ioCause = s.ioCause
          | .error e => t.st = .rejected ∧ t.err = e.code ∧ t.ioCause = false)

/-- R175: the last address byte ends the run in DONE exactly when the length reaches the family minimum, 12 for IPv4
and 36 for IPv6, and with error 7 otherwise. -/
def Obligations.FamilyMinimumDecidesTheRun : Prop :=
  ∀ (s t : State) (b : Byte), s.st = .awaitAddr → s.acnt.toNat + 1 = s.alen.toNat →
    exec (.byte b) s = .next t →
    (s.fam = 1#4 → 12 ≤ s.alen.toNat → t.st = .done) ∧
    (s.fam = 1#4 → s.alen.toNat < 12 → t.st = .rejected ∧ t.err = 7#4) ∧
    (s.fam = 2#4 → 36 ≤ s.alen.toNat → t.st = .done) ∧
    (s.fam = 2#4 → s.alen.toNat < 36 → t.st = .rejected ∧ t.err = 7#4)

/-- R163: in a terminal state no sample of the pins gives `BYTE`. -/
def Obligations.NoByteEventInTerminalState : Prop :=
  ∀ (s : State) (p : Pins) (b : Byte), s.terminal → reduce s p ≠ .byte b

/-- R164 and R165: `EOF` raises `IncompleteHeader` in AWAIT_HDR and `IncompleteAddressBlock` in AWAIT_ADDR; the bytes
taken so far stay and nothing else is written. -/
def Obligations.EofWhileWaiting : Prop :=
  ∀ s : State,
    (s.st = .awaitHdr → exec .eof s = .next { s with st := .rejected, err := 1#4, ioCause := false }) ∧
    (s.st = .awaitAddr → exec .eof s = .next { s with st := .rejected, err := 2#4, ioCause := false })

/-- R166: `IOERR` raises the same kind as `EOF` in the same state, with `io_cause` set, and wins over a byte offered in
the same cycle. -/
def Obligations.IoerrWhileWaiting : Prop :=
  (∀ (s : State) (p : Pins), p.rst = false → p.clr = false → p.timeout = false → p.inErr = true →
    reduce s p = .ioerr) ∧
  ∀ s : State,
    (s.st = .awaitHdr → exec .ioerr s = .next { s with st := .rejected, err := 1#4, ioCause := true }) ∧
    (s.st = .awaitAddr → exec .ioerr s = .next { s with st := .rejected, err := 2#4, ioCause := true })

/-- R167 and R168: `TIMEOUT` raises `Timeout` in both waiting states, and wins over a byte offered in the same cycle. -/
def Obligations.TimeoutWhileWaiting : Prop :=
  (∀ (s : State) (p : Pins), p.rst = false → p.clr = false → p.timeout = true → reduce s p = .timeout) ∧
  ∀ s : State, s.waiting →
    exec .timeout s = .next { s with st := .rejected, err := 8#4, ioCause := false }

/-- R169: `EOF`, `IOERR` and `TIMEOUT` are ignored in a terminal state. -/
def Obligations.TerminatorsIgnoredAfterTheEnd : Prop :=
  ∀ s : State, s.terminal →
    exec .eof s = .next s ∧ exec .ioerr s = .next s ∧ exec .timeout s = .next s

/-- R172: `CFGW` writes `CFG` and nothing else, in any state. In the cycle of an `RST` it has no effect, and in the
cycle of any other event, `CLR` for one, both happen. -/
def Obligations.CfgwWritesPolicyOnly : Prop :=
  (∀ (s : State) (v : BitVec 2), exec (.cfgw v) s = .next { s with cfg := v }) ∧
  (∀ (s t : State) (p : Pins), p.rst = true → cycle s p = .next t → t.cfg = 0#2) ∧
  ∀ (s t : State) (p : Pins), s.resetSeen = true → p.rst = false → p.cfgWe = true →
    exec (reduce s p) s = .next t → cycle s p = .next { t with cfg := p.cfgWdata }

/-- R170: from a terminal state every cycle without `CLR` and `RST` leaves all but `CFG` as it is. -/
def Obligations.TerminalStatesStay : Prop :=
  ∀ (s : State) (p : Pins), s.resetSeen = true → s.terminal → p.rst = false → p.clr = false →
    cycle s p = .next { s with cfg := if p.cfgWe = true then p.cfgWdata else s.cfg }

/-- R158 and R218: `TIMEOUT` beats everything but `RST` and `CLR`, and `IOERR` everything but those three; a byte offered
in the same cycle is not consumed. -/
def Obligations.TerminatorsBeatByteAndEof : Prop :=
  ∀ (s : State) (p : Pins), s.resetSeen = true → s.waiting → p.rst = false → p.clr = false →
    p.cfgWe = false →
    (p.timeout = true → cycle s p = .next { s with st := .rejected, err := 8#4, ioCause := false }) ∧
    (p.timeout = false → p.inErr = true →
      ∃ t, cycle s p = .next t ∧ t.st = .rejected ∧ t.ioCause = true ∧ t.pos = s.pos ∧
        t.err = if s.st = .awaitHdr then 1#4 else 2#4)

/-! ## The views -/

/-- R26: `pos` is the sum of the two counters and does not wrap; `BYTE` in a waiting state advances it by one, no
other event but `CLR` and `RST` moves it, and those two make it 0. In DONE it is
16 plus the length. -/
def Obligations.PositionCountsConsumedBytes : Prop :=
  (∀ s : State, s.pos.toNat = s.hcnt.toNat + s.acnt.toNat) ∧
  (∀ (s t : State) (b : Byte), s.Inv → s.waiting → exec (.byte b) s = .next t →
    t.pos.toNat = s.pos.toNat + 1) ∧
  (∀ (s t : State) (v : BitVec 2),
    exec .noEvent s = .next t ∨ exec .eof s = .next t ∨ exec .ioerr s = .next t ∨
      exec .timeout s = .next t ∨ exec (.cfgw v) s = .next t → t.pos = s.pos) ∧
  (∀ s t : State, exec .clr s = .next t ∨ exec .rst s = .next t → t.pos = 0#17) ∧
  (∀ s : State, s.Inv → s.pos.toNat ≤ 65551 ∧ (s.st = .done → s.pos.toNat = 16 + s.alen.toNat))

/-- R21, R22 and R52: `BYTE(b)` reads the stream byte at offset `pos`. It stands there afterwards if `abuf` has a place
for it, and every other offset reads as before. -/
def Obligations.ByteIsReadAtPosition : Prop :=
  ∀ (s t : State) (b : Byte), s.Inv → s.waiting → exec (.byte b) s = .next t →
    (s.pos.toNat < 52 → t.streamByte s.pos.toNat = some b) ∧
    ∀ off : Nat, off ≠ s.pos.toNat → t.streamByte off = s.streamByte off

/-- R31: the disposition in every case. -/
def Obligations.DispositionAdvice : Prop :=
  ∀ s : State,
    (s.waiting → s.disp.code = 0#2) ∧
    (s.st = .done → s.disp.code = 1#2) ∧
    (s.st = .rejected → s.err = 3#4 → s.cfg.getLsbD 0 = true → s.disp.code = 3#2) ∧
    (s.st = .rejected → s.err = 5#4 → s.cfg.getLsbD 1 = true → s.disp.code = 3#2) ∧
    (s.st = .rejected → ¬(s.err = 3#4 ∧ s.cfg.getLsbD 0 = true) →
      ¬(s.err = 5#4 ∧ s.cfg.getLsbD 1 = true) → s.disp.code = 2#2)

/-- R30: the flags are functions of `st`, which is itself on `st_q`; what they are at reset. -/
def Obligations.FlagsFollowState : Prop :=
  ∀ s : State,
    (s.outputs.inReady = true ↔ s.st = .awaitHdr ∨ s.st = .awaitAddr) ∧
    (s.outputs.done = true ↔ s.st = .done) ∧
    (s.outputs.rejected = true ↔ s.st = .rejected) ∧
    s.outputs.resValid = s.outputs.done ∧
    s.outputs.stQ = (match s.st with | .awaitHdr => 0#2 | .awaitAddr => 1#2 | .done => 2#2 | .rejected => 3#2) ∧
    (State.reset.outputs.inReady = true ∧ State.reset.outputs.done = false ∧
      State.reset.outputs.rejected = false ∧ State.reset.outputs.resValid = false)

/-- R32: the header view in DONE, and zero elsewhere. In a state that the invariants of R40 allow it is the header that
`decode_header` accepted, with version 2 and command 1. -/
def Obligations.HeaderViewShown : Prop :=
  ∀ s : State,
    (s.st ≠ .done → s.headerView = ⟨0#4, 0#4, 0#4, 0#4, 0#16⟩) ∧
    (s.st = .done → s.headerView = ⟨s.hbuf[12].extractLsb' 4 4, s.hbuf[12].extractLsb' 0 4,
      s.hbuf[13].extractLsb' 4 4, s.hbuf[13].extractLsb' 0 4, s.hbuf[14] ++ s.hbuf[15]⟩) ∧
    (s.Inv → s.st = .done → decodeHeader s.hbuf = .ok s.headerView)

/-- R33: in DONE the endpoint view follows the family. For IPv4 the first octet on the wire is bits 31 to 24 and the
bits above are zero; for IPv6 the octets fill the port, the first in bits 127 to 120. Outside DONE all ports are zero. -/
def Obligations.EndpointViewShown : Prop :=
  ∀ s : State,
    (s.st ≠ .done → s.endpointView = ⟨0#128, 0#128, 0#16, 0#16⟩) ∧
    (s.st = .done → s.hbuf[13].extractLsb' 4 4 = 1#4 →
      s.endpointView.srcIp = (s.abuf[0] ++ s.abuf[1] ++ s.abuf[2] ++ s.abuf[3]).setWidth 128 ∧
      s.endpointView.dstIp = (s.abuf[4] ++ s.abuf[5] ++ s.abuf[6] ++ s.abuf[7]).setWidth 128 ∧
      s.endpointView.srcPort = s.abuf[8] ++ s.abuf[9] ∧
      s.endpointView.dstPort = s.abuf[10] ++ s.abuf[11]) ∧
    (s.st = .done → s.hbuf[13].extractLsb' 4 4 = 2#4 →
      s.endpointView.srcIp =
        s.abuf[0] ++ s.abuf[1] ++ s.abuf[2] ++ s.abuf[3] ++ s.abuf[4] ++ s.abuf[5] ++ s.abuf[6] ++ s.abuf[7] ++
        s.abuf[8] ++ s.abuf[9] ++ s.abuf[10] ++ s.abuf[11] ++ s.abuf[12] ++ s.abuf[13] ++ s.abuf[14] ++ s.abuf[15] ∧
      s.endpointView.dstIp =
        s.abuf[16] ++ s.abuf[17] ++ s.abuf[18] ++ s.abuf[19] ++ s.abuf[20] ++ s.abuf[21] ++ s.abuf[22] ++
        s.abuf[23] ++ s.abuf[24] ++ s.abuf[25] ++ s.abuf[26] ++ s.abuf[27] ++ s.abuf[28] ++ s.abuf[29] ++
        s.abuf[30] ++ s.abuf[31] ∧
      s.endpointView.srcPort = s.abuf[32] ++ s.abuf[33] ∧
      s.endpointView.dstPort = s.abuf[34] ++ s.abuf[35])

/-! ## Steps, runs and invariants -/

/-- A step runs the instruction that the next sample's pins decode to, on the state whose sample has been taken, and
then the configuration write of the same cycle if there is one. An exhausted list of samples is an idle cycle (log
entry 1). -/
def Obligations.StepRunsDecodedEvent : Prop :=
  (∀ (s : State) (p : Pins) (rest : List Pins) (i : Instr), s.inputs = p :: rest → s.resetSeen = true →
    decode (.ev (eventVector s p) p.inData) = .ok i →
    ∃ t, exec i { s with inputs := rest } = .next t ∧
      (p.rst = false → p.cfgWe = true → step s = exec (.cfgw p.cfgWdata) t) ∧
      (p.rst = true ∨ p.cfgWe = false → step s = .next t)) ∧
  (∀ s : State, s.inputs = [] → s.resetSeen = true → step s = .next s)

/-- R151: after the first reset every step answers a next state. -/
def Obligations.StepIsTotalAfterReset : Prop :=
  ∀ s : State, s.resetSeen = true → ∃ t, step s = .next t ∧ t.resetSeen = true

/-- R241: before the first `RST` the block has no step but `RST`, which gives the reset state. -/
def Obligations.NoStepBeforeFirstReset : Prop :=
  ∀ s : State, s.resetSeen = false →
    (s.nextPins.rst = false → step s = .refused .beforeFirstReset) ∧
    (s.nextPins.rst = true → step s = .next { State.reset with inputs := s.inputs.tail })

/-- The reset state satisfies the invariants of R40. -/
def Obligations.ResetSatisfiesInvariants : Prop := State.reset.Inv

/-- Every step keeps the invariants of R40, from every state that satisfies them. -/
def Obligations.StepKeepsInvariants : Prop :=
  ∀ s t : State, s.Inv → step s = .next t → t.Inv

/-- R40: in every state reachable from reset by any event sequence, the invariants hold. -/
def Obligations.ReachableStatesSatisfyInvariants : Prop :=
  ∀ (inputs : List Pins) (k : Nat) (t : State),
    Host.Core.run Sys2Proof.core k { State.reset with inputs := inputs } = .next t → t.Inv

/-- R29: `CFG` changes no transition, no error code and no output but `disp` and `cfg_q`: a run from a state with
another `CFG` is the same run up to `CFG`. -/
def Obligations.ConfigNeverSteersTheRun : Prop :=
  ∀ (s t : State) (c : BitVec 2) (k : Nat), Host.Core.run Sys2Proof.core k s = .next t →
    ∃ c', Host.Core.run Sys2Proof.core k { s with cfg := c } = .next { t with cfg := c' } ∧
      ∃ d g, ({ t with cfg := c' } : State).outputs = { t.outputs with disp := d, cfgQ := g }

/-- R224: in a cycle in which the caller drives none of its own inputs, nothing the stream, the timer or the source does
reaches `CFG` or re-arms a finished run. -/
def Obligations.StreamCannotReachControl : Prop :=
  ∀ (s t : State) (p : Pins), p.rst = false → p.clr = false → p.cfgWe = false → cycle s p = .next t →
    t.cfg = s.cfg ∧ t.inputs = s.inputs ∧ t.resetSeen = s.resetSeen ∧ (s.terminal → t = s) ∧
      (s.Inv → s.pos.toNat ≤ t.pos.toNat)

/-- R248: a run ends if a terminator comes: from a waiting state, when the pending samples hold no `RST` and no `CLR`
and somewhere a timeout, a stream error, or an end of stream with no byte offered, the state after them is terminal. -/
def Obligations.BoundedWaitEndsEveryRun : Prop :=
  ∀ s : State, s.resetSeen = true → s.waiting →
    (∀ p ∈ s.inputs, p.rst = false ∧ p.clr = false) → boundedWait s.inputs = true →
    ∃ t, Host.Core.run Sys2Proof.core s.inputs.length s = .next t ∧ t.terminal

/-- Sixteen bytes offered one a cycle to an armed block are one header instruction: the state after the sixteen steps is
that of `exec` of the instruction the sixteen bytes decode to. -/
def Obligations.SixteenBytesRunTheHeaderForm : Prop :=
  ∀ (s : State) (w : BitVec 128) (rest : List Pins), s.armed → s.resetSeen = true →
    s.inputs = scriptSend (headerBytes w).toList ++ rest →
    Host.Core.run Sys2Proof.core 16 s = exec (decodeHeaderWord w) { s with inputs := rest }

/-- R176: the closed form of a whole run. From an armed state, with bytes offered in order with any idle cycles between
them and then a terminator or none, the state after all samples reports `outcome` of the bytes. -/
def Obligations.RunHasClosedForm : Prop :=
  ∀ (s : State) (offers : List (Option Byte)) (t : Option Terminator), s.armed → s.resetSeen = true →
    s.inputs = runInputs offers t →
    ∃ u, Host.Core.run Sys2Proof.core s.inputs.length s = .next u ∧
      u.runOutcome = outcome (offers.filterMap id) t ∧ u.cfg = s.cfg

/-- R138 and R150, IPv4: the preamble of any endpoints, with any protocol nibble and any number of further bytes that the
length can count, ends in DONE with exactly that header and those endpoints, at the first byte after it. -/
def Obligations.Inet4PreambleRoundTrip : Prop :=
  ∀ (s : State) (e : Endpoints) (protocol : Nibble) (pad : Nat), s.armed → s.resetSeen = true →
    e.sourceIp.length = 4 → e.destinationIp.length = 4 → 12 + pad ≤ 65535 →
    s.inputs = scriptSend (preambleInet4 e protocol pad) →
    ∃ u, Host.Core.run Sys2Proof.core (28 + pad) s = .next u ∧ u.st = .done ∧ u.pos.toNat = 28 + pad ∧
      u.result = some (⟨2#4, 1#4, 1#4, protocol, BitVec.ofNat 16 (12 + pad)⟩, e) ∧
      u.endpointView = e.ports

/-- R138 and R150, IPv6. -/
def Obligations.Inet6PreambleRoundTrip : Prop :=
  ∀ (s : State) (e : Endpoints) (protocol : Nibble) (pad : Nat), s.armed → s.resetSeen = true →
    e.sourceIp.length = 16 → e.destinationIp.length = 16 → 36 + pad ≤ 65535 →
    s.inputs = scriptSend (preambleInet6 e protocol pad) →
    ∃ u, Host.Core.run Sys2Proof.core (52 + pad) s = .next u ∧ u.st = .done ∧ u.pos.toNat = 52 + pad ∧
      u.result = some (⟨2#4, 1#4, 2#4, protocol, BitVec.ofNat 16 (36 + pad)⟩, e) ∧
      u.endpointView = e.ports

/-- R230: a stepped instance gets the result of its own step, no other instance changes, and stepping two instances in
either order gives the same platform, in which each has the result of its own step. That a platform is a list of states,
of which one named instance is stepped at a time, is the model's choice (log entry 9). -/
def Obligations.InstancesDoNotInterfere : Prop :=
  (∀ (j : Nat) (platform : List State) (s t : State), platform[j]? = some s → step s = .next t →
    ∃ pj, stepInstance j platform = some pj ∧ pj[j]? = some t ∧ ∀ n, n ≠ j → pj[n]? = platform[n]?) ∧
  ∀ (j k : Nat) (platform : List State) (s s' t t' : State), j ≠ k →
    platform[j]? = some s → step s = .next t → platform[k]? = some s' → step s' = .next t' →
    ∃ pj pk both, stepInstance j platform = some pj ∧ stepInstance k platform = some pk ∧
      stepInstance k pj = some both ∧ stepInstance j pk = some both ∧
      both[j]? = some t ∧ both[k]? = some t'
end

