-- ==== Sys2Proof/Laws/Decode.lean ====
section
/-! SUPPORT. The fields of a header word, and what each row of R76 tests, field by field. -/

namespace Sys2Proof

/-- The bits of a word built from its fields (R71). -/
theorem getLsbD_headerFields (g : BitVec 96) (v c f p : Nibble) (l : Half) (i : Nat) :
    (headerFields g v c f p l).getLsbD i =
      if i < 16 then l.getLsbD i
      else if i - 16 < 4 then p.getLsbD (i - 16)
      else if i - 16 - 4 < 4 then f.getLsbD (i - 16 - 4)
      else if i - 16 - 4 - 4 < 4 then c.getLsbD (i - 16 - 4 - 4)
      else if i - 16 - 4 - 4 - 4 < 4 then v.getLsbD (i - 16 - 4 - 4 - 4)
      else g.getLsbD (i - 16 - 4 - 4 - 4 - 4) := by
  change BitVec.getLsbD (w := 96 + 4 + 4 + 4 + 4 + 16) (g ++ v ++ c ++ f ++ p ++ l) i = _
  simp only [BitVec.getLsbD_append]

@[simp] theorem signatureField_headerFields (g : BitVec 96) (v c f p : Nibble) (l : Half) :
    signatureField (headerFields g v c f p l) = g := by
  refine BitVec.eq_of_getLsbD_eq fun i hi => ?_
  simp only [signatureField, BitVec.getLsbD_extractLsb', getLsbD_headerFields, hi, decide_true, Bool.true_and]
  rw [if_neg (by omega), if_neg (by omega), if_neg (by omega), if_neg (by omega), if_neg (by omega)]
  congr 1
  omega

@[simp] theorem versionField_headerFields (g : BitVec 96) (v c f p : Nibble) (l : Half) :
    versionField (headerFields g v c f p l) = v := by
  refine BitVec.eq_of_getLsbD_eq fun i hi => ?_
  simp only [versionField, BitVec.getLsbD_extractLsb', getLsbD_headerFields, hi, decide_true, Bool.true_and]
  rw [if_neg (by omega), if_neg (by omega), if_neg (by omega), if_neg (by omega), if_pos (by omega)]
  congr 1
  omega

@[simp] theorem commandField_headerFields (g : BitVec 96) (v c f p : Nibble) (l : Half) :
    commandField (headerFields g v c f p l) = c := by
  refine BitVec.eq_of_getLsbD_eq fun i hi => ?_
  simp only [commandField, BitVec.getLsbD_extractLsb', getLsbD_headerFields, hi, decide_true, Bool.true_and]
  rw [if_neg (by omega), if_neg (by omega), if_neg (by omega), if_pos (by omega)]
  congr 1
  omega

@[simp] theorem familyField_headerFields (g : BitVec 96) (v c f p : Nibble) (l : Half) :
    familyField (headerFields g v c f p l) = f := by
  refine BitVec.eq_of_getLsbD_eq fun i hi => ?_
  simp only [familyField, BitVec.getLsbD_extractLsb', getLsbD_headerFields, hi, decide_true, Bool.true_and]
  rw [if_neg (by omega), if_neg (by omega), if_pos (by omega)]
  congr 1
  omega

@[simp] theorem protocolField_headerFields (g : BitVec 96) (v c f p : Nibble) (l : Half) :
    protocolField (headerFields g v c f p l) = p := by
  refine BitVec.eq_of_getLsbD_eq fun i hi => ?_
  simp only [protocolField, BitVec.getLsbD_extractLsb', getLsbD_headerFields, hi, decide_true, Bool.true_and]
  rw [if_neg (by omega), if_pos (by omega)]
  congr 1
  omega

@[simp] theorem addressLengthField_headerFields (g : BitVec 96) (v c f p : Nibble) (l : Half) :
    addressLengthField (headerFields g v c f p l) = l := by
  refine BitVec.eq_of_getLsbD_eq fun i hi => ?_
  simp only [addressLengthField, BitVec.getLsbD_extractLsb', getLsbD_headerFields, hi, decide_true, Bool.true_and]
  rw [if_pos (by omega)]
  congr 1
  omega

/-- A word is what its six fields build (R71). -/
theorem headerFields_eta (w : BitVec 128) :
    headerFields (signatureField w) (versionField w) (commandField w) (familyField w) (protocolField w)
      (addressLengthField w) = w := by
  refine BitVec.eq_of_getLsbD_eq fun i hi => ?_
  simp only [getLsbD_headerFields, signatureField, versionField, commandField, familyField, protocolField,
    addressLengthField, BitVec.getLsbD_extractLsb']
  split_ifs <;> (rw [decide_eq_true (by omega), Bool.true_and]; congr 1; omega)

theorem headerFields_inj (g g' : BitVec 96) (v c f p v' c' f' p' : Nibble) (l l' : Half) :
    headerFields g v c f p l = headerFields g' v' c' f' p' l' ↔
      g = g' ∧ v = v' ∧ c = c' ∧ f = f' ∧ p = p' ∧ l = l' := by
  constructor
  · intro h
    refine ⟨?_, ?_, ?_, ?_, ?_, ?_⟩
    · simpa using congrArg signatureField h
    · simpa using congrArg versionField h
    · simpa using congrArg commandField h
    · simpa using congrArg familyField h
    · simpa using congrArg protocolField h
    · simpa using congrArg addressLengthField h
  · rintro ⟨rfl, rfl, rfl, rfl, rfl, rfl⟩
    rfl

theorem headerFields_and (g g' : BitVec 96) (v c f p v' c' f' p' : Nibble) (l l' : Half) :
    headerFields g v c f p l &&& headerFields g' v' c' f' p' l' =
      headerFields (g &&& g') (v &&& v') (c &&& c') (f &&& f') (p &&& p') (l &&& l') := by
  refine BitVec.eq_of_getLsbD_eq fun i _ => ?_
  simp only [BitVec.getLsbD_and, getLsbD_headerFields]
  split_ifs <;> rfl

theorem nibble_and_ones (n : Nibble) : n &&& 15#4 = n := BitVec.and_allOnes

theorem signature_and_ones (g : BitVec 96) : g &&& 79228162514264337593543950335#96 = g :=
  BitVec.and_allOnes

/-- What a row of a header form tests of a word's fields (R76). -/
theorem proxyInet4_hits (w : BitVec 128) :
    HeaderForm.proxyInet4.row.hits w = true ↔
      signatureField w = Config.signatureWord ∧ versionField w = 2#4 ∧ commandField w = 1#4 ∧
        familyField w = 1#4 := by
  conv_lhs => rw [← headerFields_eta w]
  simp [HeaderForm.row, Pattern.hits, headerFields_and, headerFields_inj, nibble_and_ones,
    signature_and_ones]

@[inherit_doc proxyInet4_hits] theorem proxyInet6_hits (w : BitVec 128) :
    HeaderForm.proxyInet6.row.hits w = true ↔
      signatureField w = Config.signatureWord ∧ versionField w = 2#4 ∧ commandField w = 1#4 ∧
        familyField w = 2#4 := by
  conv_lhs => rw [← headerFields_eta w]
  simp [HeaderForm.row, Pattern.hits, headerFields_and, headerFields_inj, nibble_and_ones,
    signature_and_ones]

@[inherit_doc proxyInet4_hits] theorem rejFamily_hits (w : BitVec 128) :
    HeaderForm.rejFamily.row.hits w = true ↔
      signatureField w = Config.signatureWord ∧ versionField w = 2#4 ∧ commandField w = 1#4 := by
  conv_lhs => rw [← headerFields_eta w]
  simp [HeaderForm.row, Pattern.hits, headerFields_and, headerFields_inj, nibble_and_ones,
    signature_and_ones]

@[inherit_doc proxyInet4_hits] theorem rejCommand_hits (w : BitVec 128) :
    HeaderForm.rejCommand.row.hits w = true ↔
      signatureField w = Config.signatureWord ∧ versionField w = 2#4 := by
  conv_lhs => rw [← headerFields_eta w]
  simp [HeaderForm.row, Pattern.hits, headerFields_and, headerFields_inj, nibble_and_ones,
    signature_and_ones]

@[inherit_doc proxyInet4_hits] theorem rejVersion_hits (w : BitVec 128) :
    HeaderForm.rejVersion.row.hits w = true ↔ signatureField w = Config.signatureWord := by
  conv_lhs => rw [← headerFields_eta w]
  simp [HeaderForm.row, Pattern.hits, headerFields_and, headerFields_inj, signature_and_ones]

/-- The decode map of R76 as conditions on the fields. -/
theorem classifyHeader_eq (w : BitVec 128) :
    classifyHeader w =
      if signatureField w ≠ Config.signatureWord then .rejSignature
      else if versionField w ≠ 2#4 then .rejVersion
      else if commandField w ≠ 1#4 then .rejCommand
      else if familyField w = 1#4 then .proxyInet4
      else if familyField w = 2#4 then .proxyInet6
      else .rejFamily := by
  simp only [classifyHeader, proxyInet4_hits, proxyInet6_hits, rejFamily_hits, rejCommand_hits, rejVersion_hits]
  by_cases hs : signatureField w = Config.signatureWord <;> by_cases hv : versionField w = 2#4 <;>
    by_cases hc : commandField w = 1#4 <;> simp [hs, hv, hc]

/-- The bits of a header word, byte by byte: byte `15 - q` fills the bits from `8 q` up (R71). -/
theorem getLsbD_headerWord (h : HeaderBuf) (q r : Nat) (hq : q < 16) (hr : r < 8) :
    (headerWord h).getLsbD (8 * q + r) = (h[15 - q]).getLsbD r := by
  change BitVec.getLsbD (w := 8 + 8 + 8 + 8 + 8 + 8 + 8 + 8 + 8 + 8 + 8 + 8 + 8 + 8 + 8 + 8)
    (h[0] ++ h[1] ++ h[2] ++ h[3] ++ h[4] ++ h[5] ++ h[6] ++ h[7] ++
      h[8] ++ h[9] ++ h[10] ++ h[11] ++ h[12] ++ h[13] ++ h[14] ++ h[15]) (8 * q + r) = _
  interval_cases q <;> simp (disch := omega) only [BitVec.getLsbD_append, if_pos, if_neg] <;>
    exact congrArg (BitVec.getLsbD _) (by omega)

theorem getElem_headerBytes (w : BitVec 128) (k : Nat) (hk : k < 16) :
    (headerBytes w)[k] = w.extractLsb' (8 * (15 - k)) 8 := by
  interval_cases k <;> rfl

/-- The bytes of a word are the bytes it was built from (R71). -/
@[simp] theorem headerBytes_headerWord (h : HeaderBuf) : headerBytes (headerWord h) = h := by
  refine Vector.ext fun k hk => BitVec.eq_of_getLsbD_eq fun j hj => ?_
  rw [getElem_headerBytes _ _ hk, BitVec.getLsbD_extractLsb', getLsbD_headerWord _ _ _ (by omega) hj]
  have : 15 - (15 - k) = k := by omega
  simp only [this, hj, decide_true, Bool.true_and]

/-- A word is built from its own bytes (R71). -/
@[simp] theorem headerWord_headerBytes (w : BitVec 128) : headerWord (headerBytes w) = w := by
  refine BitVec.eq_of_getLsbD_eq fun i hi => ?_
  have hr : i % 8 < 8 := Nat.mod_lt _ (by decide)
  have hi' : i = 8 * (i / 8) + i % 8 := by omega
  rw [hi', getLsbD_headerWord _ _ _ (by omega) hr, getElem_headerBytes _ _ (by omega),
    BitVec.getLsbD_extractLsb', decide_eq_true hr, Bool.true_and]
  congr 1
  omega

/-- A field of a header word that lies in one byte: `8 q + r` is where it begins (R71, R74). -/
theorem extractLsb'_headerWord (h : HeaderBuf) (q r n : Nat) (hq : q < 16) (hn : r + n ≤ 8) :
    (headerWord h).extractLsb' (8 * q + r) n = (h[15 - q]).extractLsb' r n := by
  refine BitVec.eq_of_getLsbD_eq fun i hi => ?_
  rw [BitVec.getLsbD_extractLsb', BitVec.getLsbD_extractLsb', Nat.add_assoc,
    getLsbD_headerWord _ _ _ hq (by omega)]

@[simp] theorem versionField_headerWord (h : HeaderBuf) : versionField (headerWord h) = hiNibble h[12] :=
  extractLsb'_headerWord h 3 4 4 (by decide) (by decide)

@[simp] theorem commandField_headerWord (h : HeaderBuf) : commandField (headerWord h) = loNibble h[12] :=
  extractLsb'_headerWord h 3 0 4 (by decide) (by decide)

@[simp] theorem familyField_headerWord (h : HeaderBuf) : familyField (headerWord h) = hiNibble h[13] :=
  extractLsb'_headerWord h 2 4 4 (by decide) (by decide)

@[simp] theorem protocolField_headerWord (h : HeaderBuf) : protocolField (headerWord h) = loNibble h[13] :=
  extractLsb'_headerWord h 2 0 4 (by decide) (by decide)

@[simp] theorem addressLengthField_headerWord (h : HeaderBuf) :
    addressLengthField (headerWord h) = be16 h[14] h[15] := by
  refine BitVec.eq_of_getLsbD_eq fun i hi => ?_
  rw [addressLengthField, BitVec.getLsbD_extractLsb', decide_eq_true hi, Bool.true_and, be16,
    BitVec.getLsbD_append]
  by_cases h8 : i < 8
  · rw [if_pos h8]
    simpa using getLsbD_headerWord h 0 i (by decide) h8
  · rw [if_neg h8, show 0 + i = 8 * 1 + (i - 8) by omega]
    exact getLsbD_headerWord h 1 (i - 8) (by decide) (by omega)

/-- A byte of the header, read back from the signature field (R71). -/
theorem getElem_eq_signatureField (h : HeaderBuf) (k : Nat) (hk : k < 12) :
    h[k] = (signatureField (headerWord h)).extractLsb' (8 * (11 - k)) 8 := by
  conv_lhs => rw [← headerBytes_headerWord h]
  rw [getElem_headerBytes _ _ (by omega), signatureField]
  refine BitVec.eq_of_getLsbD_eq fun i hi => ?_
  simp only [BitVec.getLsbD_extractLsb', hi, decide_true, Bool.true_and]
  rw [decide_eq_true (by omega), Bool.true_and]
  congr 1
  omega

theorem signatureWord_byte :
    ∀ k : Fin 12, Config.signatureWord.extractLsb' (8 * (11 - k.val)) 8 = Config.signature[k] := by
  decide

theorem signatureWord_bit :
    ∀ j : Fin 96, Config.signatureWord.getLsbD j.val =
      (Config.signature[11 - j.val / 8]).getLsbD (j.val % 8) := by
  decide

/-- The signature field is right exactly when each of the twelve bytes is (R71, R101). -/
theorem signatureField_headerWord_iff (h : HeaderBuf) :
    signatureField (headerWord h) = Config.signatureWord ↔ ∀ k (_ : k < 12), h[k] = Config.signature[k] := by
  constructor
  · intro e k hk
    rw [getElem_eq_signatureField h k hk, e]
    exact signatureWord_byte ⟨k, hk⟩
  · intro e
    refine BitVec.eq_of_getLsbD_eq fun i hi => ?_
    rw [signatureWord_bit ⟨i, hi⟩, signatureField, BitVec.getLsbD_extractLsb', decide_eq_true hi, Bool.true_and,
      show 32 + i = 8 * (4 + i / 8) + i % 8 by omega,
      getLsbD_headerWord _ _ _ (by omega) (Nat.mod_lt _ (by decide)), ← e _ (by omega)]
    have hk : 15 - (4 + i / 8) = 11 - i / 8 := by omega
    simp only [hk]

end Sys2Proof
end

