-- ==== Sys2Proof/Laws/State.lean ====
section
/-! SUPPORT. One lemma per field per update of State. -/
namespace Sys2Proof.Machine
@[simp] theorem State.raise_st (e : DecodeError) (io : Bool) (s : State) : (s.raise e io).st = .rejected := rfl
@[simp] theorem State.raise_hcnt (e : DecodeError) (io : Bool) (s : State) : (s.raise e io).hcnt = s.hcnt := rfl
@[simp] theorem State.raise_acnt (e : DecodeError) (io : Bool) (s : State) : (s.raise e io).acnt = s.acnt := rfl
@[simp] theorem State.raise_hbuf (e : DecodeError) (io : Bool) (s : State) : (s.raise e io).hbuf = s.hbuf := rfl
@[simp] theorem State.raise_abuf (e : DecodeError) (io : Bool) (s : State) : (s.raise e io).abuf = s.abuf := rfl
@[simp] theorem State.raise_err (e : DecodeError) (io : Bool) (s : State) : (s.raise e io).err = e.code := rfl
@[simp] theorem State.raise_ioCause (e : DecodeError) (io : Bool) (s : State) : (s.raise e io).ioCause = io := rfl
@[simp] theorem State.raise_cfg (e : DecodeError) (io : Bool) (s : State) : (s.raise e io).cfg = s.cfg := rfl
@[simp] theorem State.raise_resetSeen (e : DecodeError) (io : Bool) (s : State) : (s.raise e io).resetSeen = s.resetSeen := rfl
@[simp] theorem State.raise_inputs (e : DecodeError) (io : Bool) (s : State) : (s.raise e io).inputs = s.inputs := rfl

@[simp] theorem State.toReset_st (s : State) : (s.toReset).st = .awaitHdr := rfl
@[simp] theorem State.toReset_hcnt (s : State) : (s.toReset).hcnt = 0#5 := rfl
@[simp] theorem State.toReset_acnt (s : State) : (s.toReset).acnt = 0#16 := rfl
@[simp] theorem State.toReset_hbuf (s : State) : (s.toReset).hbuf = Vector.replicate 16 0#8 := rfl
@[simp] theorem State.toReset_abuf (s : State) : (s.toReset).abuf = Vector.replicate 36 0#8 := rfl
@[simp] theorem State.toReset_err (s : State) : (s.toReset).err = 0#4 := rfl
@[simp] theorem State.toReset_ioCause (s : State) : (s.toReset).ioCause = false := rfl
@[simp] theorem State.toReset_cfg (s : State) : (s.toReset).cfg = 0#2 := rfl
@[simp] theorem State.toReset_resetSeen (s : State) : (s.toReset).resetSeen = true := rfl
@[simp] theorem State.toReset_inputs (s : State) : (s.toReset).inputs = s.inputs := rfl

@[simp] theorem State.rearm_st (s : State) : (s.rearm).st = .awaitHdr := rfl
@[simp] theorem State.rearm_hcnt (s : State) : (s.rearm).hcnt = 0#5 := rfl
@[simp] theorem State.rearm_acnt (s : State) : (s.rearm).acnt = 0#16 := rfl
@[simp] theorem State.rearm_hbuf (s : State) : (s.rearm).hbuf = Vector.replicate 16 0#8 := rfl
@[simp] theorem State.rearm_abuf (s : State) : (s.rearm).abuf = Vector.replicate 36 0#8 := rfl
@[simp] theorem State.rearm_err (s : State) : (s.rearm).err = 0#4 := rfl
@[simp] theorem State.rearm_ioCause (s : State) : (s.rearm).ioCause = false := rfl
@[simp] theorem State.rearm_cfg (s : State) : (s.rearm).cfg = s.cfg := rfl
@[simp] theorem State.rearm_resetSeen (s : State) : (s.rearm).resetSeen = s.resetSeen := rfl
@[simp] theorem State.rearm_inputs (s : State) : (s.rearm).inputs = s.inputs := rfl

@[simp] theorem State.storeHeaderByte_st (b : Byte) (s : State) : (s.storeHeaderByte b).st = s.st := rfl
@[simp] theorem State.storeHeaderByte_hcnt (b : Byte) (s : State) : (s.storeHeaderByte b).hcnt = s.hcnt + 1#5 := rfl
@[simp] theorem State.storeHeaderByte_acnt (b : Byte) (s : State) : (s.storeHeaderByte b).acnt = s.acnt := rfl
@[simp] theorem State.storeHeaderByte_hbuf (b : Byte) (s : State) : (s.storeHeaderByte b).hbuf = s.hbuf.setIfInBounds s.hcnt.toNat b := rfl
@[simp] theorem State.storeHeaderByte_abuf (b : Byte) (s : State) : (s.storeHeaderByte b).abuf = s.abuf := rfl
@[simp] theorem State.storeHeaderByte_err (b : Byte) (s : State) : (s.storeHeaderByte b).err = s.err := rfl
@[simp] theorem State.storeHeaderByte_ioCause (b : Byte) (s : State) : (s.storeHeaderByte b).ioCause = s.ioCause := rfl
@[simp] theorem State.storeHeaderByte_cfg (b : Byte) (s : State) : (s.storeHeaderByte b).cfg = s.cfg := rfl
@[simp] theorem State.storeHeaderByte_resetSeen (b : Byte) (s : State) : (s.storeHeaderByte b).resetSeen = s.resetSeen := rfl
@[simp] theorem State.storeHeaderByte_inputs (b : Byte) (s : State) : (s.storeHeaderByte b).inputs = s.inputs := rfl

@[simp] theorem State.storeAddressByte_st (b : Byte) (s : State) : (s.storeAddressByte b).st = s.st := rfl
@[simp] theorem State.storeAddressByte_hcnt (b : Byte) (s : State) : (s.storeAddressByte b).hcnt = s.hcnt := rfl
@[simp] theorem State.storeAddressByte_acnt (b : Byte) (s : State) : (s.storeAddressByte b).acnt = s.acnt + 1#16 := rfl
@[simp] theorem State.storeAddressByte_hbuf (b : Byte) (s : State) : (s.storeAddressByte b).hbuf = s.hbuf := rfl
@[simp] theorem State.storeAddressByte_abuf (b : Byte) (s : State) : (s.storeAddressByte b).abuf =
      if s.acnt.toNat < 36 then s.abuf.setIfInBounds s.acnt.toNat b else s.abuf := rfl
@[simp] theorem State.storeAddressByte_err (b : Byte) (s : State) : (s.storeAddressByte b).err = s.err := rfl
@[simp] theorem State.storeAddressByte_ioCause (b : Byte) (s : State) : (s.storeAddressByte b).ioCause = s.ioCause := rfl
@[simp] theorem State.storeAddressByte_cfg (b : Byte) (s : State) : (s.storeAddressByte b).cfg = s.cfg := rfl
@[simp] theorem State.storeAddressByte_resetSeen (b : Byte) (s : State) : (s.storeAddressByte b).resetSeen = s.resetSeen := rfl
@[simp] theorem State.storeAddressByte_inputs (b : Byte) (s : State) : (s.storeAddressByte b).inputs = s.inputs := rfl

@[simp] theorem State.latchHeader_st (w : BitVec 128) (s : State) : (s.latchHeader w).st = s.st := rfl
@[simp] theorem State.latchHeader_hcnt (w : BitVec 128) (s : State) : (s.latchHeader w).hcnt = 16#5 := rfl
@[simp] theorem State.latchHeader_acnt (w : BitVec 128) (s : State) : (s.latchHeader w).acnt = s.acnt := rfl
@[simp] theorem State.latchHeader_hbuf (w : BitVec 128) (s : State) : (s.latchHeader w).hbuf = headerBytes w := rfl
@[simp] theorem State.latchHeader_abuf (w : BitVec 128) (s : State) : (s.latchHeader w).abuf = s.abuf := rfl
@[simp] theorem State.latchHeader_err (w : BitVec 128) (s : State) : (s.latchHeader w).err = s.err := rfl
@[simp] theorem State.latchHeader_ioCause (w : BitVec 128) (s : State) : (s.latchHeader w).ioCause = s.ioCause := rfl
@[simp] theorem State.latchHeader_cfg (w : BitVec 128) (s : State) : (s.latchHeader w).cfg = s.cfg := rfl
@[simp] theorem State.latchHeader_resetSeen (w : BitVec 128) (s : State) : (s.latchHeader w).resetSeen = s.resetSeen := rfl
@[simp] theorem State.latchHeader_inputs (w : BitVec 128) (s : State) : (s.latchHeader w).inputs = s.inputs := rfl

@[simp] theorem State.popInput_st (s : State) : (s.popInput).st = s.st := rfl
@[simp] theorem State.popInput_hcnt (s : State) : (s.popInput).hcnt = s.hcnt := rfl
@[simp] theorem State.popInput_acnt (s : State) : (s.popInput).acnt = s.acnt := rfl
@[simp] theorem State.popInput_hbuf (s : State) : (s.popInput).hbuf = s.hbuf := rfl
@[simp] theorem State.popInput_abuf (s : State) : (s.popInput).abuf = s.abuf := rfl
@[simp] theorem State.popInput_err (s : State) : (s.popInput).err = s.err := rfl
@[simp] theorem State.popInput_ioCause (s : State) : (s.popInput).ioCause = s.ioCause := rfl
@[simp] theorem State.popInput_cfg (s : State) : (s.popInput).cfg = s.cfg := rfl
@[simp] theorem State.popInput_resetSeen (s : State) : (s.popInput).resetSeen = s.resetSeen := rfl
@[simp] theorem State.popInput_inputs (s : State) : (s.popInput).inputs = s.inputs.tail := rfl

end Sys2Proof.Machine
end

