-- ==== Sys2Proof/Laws/Ops.lean ====
section
/-! SUPPORT. One lemma for each shared operation: what it can do when it answers. -/

namespace Sys2Proof.Machine

@[simp] theorem andThen_next (s : State) (f : State → Result) : andThen (.next s) f = f s := rfl

/-- An `andThen` that answers `next` answered `next` in both parts. -/
theorem andThen_eq_next {r : Result} {f : State → Result} {t : State} (h : andThen r f = .next t) :
    ∃ s, r = .next s ∧ f s = .next t := by
  cases r with
  | next s => exact ⟨s, rfl, h⟩
  | fault e => cases e
  | refused e => simp [andThen] at h

/-- What a header beat can do: complete a header in AWAIT_HDR, or nothing at all. -/
theorem headerBeat_cases (w : BitVec 128) (k : State → State) (s : State) :
    (s.st = .awaitHdr ∧ headerBeat w k s = .next (k (s.latchHeader w))) ∨
      (s.st ≠ .awaitHdr ∧ headerBeat w k s = .next s) := by
  cases h : s.st <;> simp [headerBeat, h]

theorem headerBeat_awaitHdr {w : BitVec 128} {k : State → State} {s : State} (h : s.st = .awaitHdr) :
    headerBeat w k s = .next (k (s.latchHeader w)) := by
  simp [headerBeat, h]

/-- What a terminator can do: end a waiting run with its kind of error, or nothing at all. -/
theorem endRun_cases (eh ea : DecodeError) (io : Bool) (s : State) :
    (s.st = .awaitHdr ∧ endRun eh ea io s = .next (s.raise eh io)) ∨
      (s.st = .awaitAddr ∧ endRun eh ea io s = .next (s.raise ea io)) ∨
      (s.terminal ∧ endRun eh ea io s = .next s) := by
  cases h : s.st <;> simp [endRun, State.terminal, h]

/-- ABD on no bytes: truncated for both families, and the defensive kind for any other (R161, R134). -/
theorem decodeAddressBlock_nil (f : Nibble) :
    decodeAddressBlock f [] =
      .error (if f = 1#4 ∨ f = 2#4 then .truncatedAddressBlock else .unknownAddressFamily) := by
  by_cases h1 : f = 1#4
  · simp [decodeAddressBlock, h1]
  · by_cases h2 : f = 2#4 <;> simp [decodeAddressBlock, h1, h2]

/-- What an accepted header can do (R160, R161). -/
theorem acceptHeader_cases (f : Nibble) (l : Half) (s : State) :
    (l ≠ 0#16 ∧ s.acceptHeader f l = { s with st := .awaitAddr }) ∨
      (l = 0#16 ∧ s.acceptHeader f l =
        s.raise (if f = 1#4 ∨ f = 2#4 then .truncatedAddressBlock else .unknownAddressFamily) false) := by
  by_cases h : l = 0#16
  · right
    simp [State.acceptHeader, h, decodeAddressBlock_nil]
  · left
    simp [State.acceptHeader, h]

/-- ABD in the hardware by family and length (R131, R134, R135). -/
theorem decodeAddressBlockHw_cases (f : Nibble) (l : Half) (a : AddrBuf) :
    (f = 1#4 ∧ 12 ≤ l.toNat ∧ decodeAddressBlockHw f l a = .ok (inet4Endpoints a.toList)) ∨
      (f = 2#4 ∧ 36 ≤ l.toNat ∧ decodeAddressBlockHw f l a = .ok (inet6Endpoints a.toList)) ∨
      (((f = 1#4 ∧ l.toNat < 12) ∨ (f = 2#4 ∧ l.toNat < 36)) ∧
        decodeAddressBlockHw f l a = .error .truncatedAddressBlock) ∨
      (f ≠ 1#4 ∧ f ≠ 2#4 ∧ decodeAddressBlockHw f l a = .error .unknownAddressFamily) := by
  by_cases h1 : f = 1#4
  · subst h1
    by_cases h : l.toNat < 12
    · simp [decodeAddressBlockHw, h]
    · simp only [decodeAddressBlockHw, Config.famInet4, Config.v4Min, if_true, h, if_false]
      exact .inl ⟨trivial, by omega, trivial⟩
  · by_cases h2 : f = 2#4
    · subst h2
      by_cases h : l.toNat < 36
      · simp [decodeAddressBlockHw, Config.famInet4, h]
      · simp only [decodeAddressBlockHw, Config.famInet4, Config.famInet6, Config.v6Min, h1, if_true, h, if_false]
        exact .inr (.inl ⟨trivial, by omega, trivial⟩)
    · simp [decodeAddressBlockHw, h1, h2]

/-- What the end of an address byte can do (R162). -/
theorem finishAddress_cases (b s : State) :
    (b.acnt.toNat + 1 < b.alen.toNat ∧ b.finishAddress s = s) ∨
      (b.alen.toNat ≤ b.acnt.toNat + 1 ∧
        ((∃ e, decodeAddressBlockHw s.fam s.alen s.abuf = .ok e ∧
            b.finishAddress s = { s with st := .done }) ∨
          ∃ e, decodeAddressBlockHw s.fam s.alen s.abuf = .error e ∧
            b.finishAddress s = s.raise e false)) := by
  by_cases h : b.acnt.toNat + 1 < b.alen.toNat
  · exact .inl ⟨h, by simp [State.finishAddress, h]⟩
  · refine .inr ⟨by omega, ?_⟩
    cases hd : decodeAddressBlockHw s.fam s.alen s.abuf with
    | ok e => exact .inl ⟨e, rfl, by simp [State.finishAddress, h, hd]⟩
    | error e => exact .inr ⟨e, rfl, by simp [State.finishAddress, h, hd]⟩

/-- Every header form answers a next state. -/
theorem runHeader_next (w : BitVec 128) (s : State) : ∃ t, runHeader w s = .next t := by
  cases h : s.st <;> simp only [runHeader] <;> split <;>
    simp [execProxyInet4, execProxyInet6, execRejFamily, execRejCommand, execRejVersion,
      execRejSignature, headerBeat, h]

/-- Running a header word is running the instruction it decodes to. -/
theorem runHeader_eq_exec (w : BitVec 128) (s : State) :
    runHeader w s = exec (decodeHeaderWord w) s := by
  cases h : classifyHeader w <;> simp [runHeader, decodeHeaderWord, h, exec]

/-- Every instruction answers a next state: the machine has no fault, and no meaning refuses. -/
theorem exec_next (i : Instr) (s : State) : ∃ t, exec i s = .next t := by
  cases h : s.st <;> cases i <;>
    simp [exec, execProxyInet4, execProxyInet6, execRejFamily, execRejCommand, execRejVersion,
      execRejSignature, headerBeat, endRun, execRst, execClr, execTimeout, execIoerr, execByte,
      execEof, execNoEvent, execCfgw, takeHeaderByte, takeAddressByte, h]
  rename_i b
  by_cases hc : s.hcnt + 1#5 < 16#5
  · exact ⟨_, if_pos hc⟩
  · simpa [hc] using runHeader_next _ _

/-- The configuration write of a cycle (R78, R151). -/
theorem configPart_eq (p : Pins) (s : State) :
    configPart p s =
      .next { s with cfg := if p.cfgWe = true ∧ p.rst = false then p.cfgWdata else s.cfg } := by
  rcases p with ⟨r, c, we, wd, ti, ie, iv, id, eo⟩
  cases r <;> cases we <;>
    simp [configPart, configVector, decodeConfig, rowCfgw, Pattern.hits, exec, execCfgw]

/-- The cycle function in one line: the event's next state with the configuration write on top. -/
theorem cycle_eq {s : State} {p : Pins} {t : State} (h : s.resetSeen = true ∨ p.rst = true)
    (he : exec (reduce s p) s = .next t) :
    cycle s p =
      .next { t with cfg := if p.cfgWe = true ∧ p.rst = false then p.cfgWdata else t.cfg } := by
  have : (s.resetSeen || p.rst) = true := by simpa using h
  simp [cycle, this, he, configPart_eq]

/-- A cycle that answers `next` is one after the first reset, and it is the event with the write on top. -/
theorem cycle_cases {s t : State} {p : Pins} (h : cycle s p = .next t) :
    (s.resetSeen = true ∨ p.rst = true) ∧
      ∃ u, exec (reduce s p) s = .next u ∧
        t = { u with cfg := if p.cfgWe = true ∧ p.rst = false then p.cfgWdata else u.cfg } := by
  by_cases hr : s.resetSeen = true ∨ p.rst = true
  · obtain ⟨u, hu⟩ := exec_next (reduce s p) s
    rw [cycle_eq hr hu] at h
    exact ⟨hr, u, hu, by simpa using h.symm⟩
  · have : (s.resetSeen || p.rst) = false := by simpa using hr
    simp [cycle, this] at h

/-- A step that answers `next` is a cycle on the popped state: the event with the write on top (R11, R151). -/
theorem step_cases {s t : State} (h : step s = .next t) :
    (s.resetSeen = true ∨ s.nextPins.rst = true) ∧
      ∃ u, exec (reduce s.popInput s.nextPins) s.popInput = .next u ∧
        t = { u with cfg :=
          if s.nextPins.cfgWe = true ∧ s.nextPins.rst = false then s.nextPins.cfgWdata else u.cfg } :=
  cycle_cases h

/-- What a header byte can do (R160): wait for more, or run the header form that the buffer then holds. -/
theorem takeHeaderByte_cases (b : Byte) (s : State) :
    (s.hcnt + 1#5 < 16#5 ∧ takeHeaderByte b s = .next (s.storeHeaderByte b)) ∨
      (¬s.hcnt + 1#5 < 16#5 ∧ takeHeaderByte b s =
        exec (decodeHeaderWord (headerWord (s.storeHeaderByte b).hbuf)) (s.storeHeaderByte b)) := by
  by_cases h : s.hcnt + 1#5 < 16#5
  · exact .inl ⟨h, if_pos h⟩
  · exact .inr ⟨h, (if_neg h).trans (runHeader_eq_exec _ _)⟩

/-- The byte that a header byte's write leaves at each place (R21, R160). -/
theorem storeHeaderByte_getElem (b : Byte) (s : State) (i : Nat) (hi : i < 16) :
    (s.storeHeaderByte b).hbuf[i] = if i = s.hcnt.toNat then b else s.hbuf[i] := by
  simp [Vector.getElem_setIfInBounds, eq_comm]

/-- The byte that an address byte's write leaves at each place (R22, R162). -/
theorem storeAddressByte_getElem (b : Byte) (s : State) (k : Nat) (hk : k < 36) :
    (s.storeAddressByte b).abuf[k] = if k = s.acnt.toNat then b else s.abuf[k] := by
  by_cases h : s.acnt.toNat < 36
  · simp [h, Vector.getElem_setIfInBounds, eq_comm]
  · have : k ≠ s.acnt.toNat := by omega
    simp [h, this]

/-- The signature check of FHD is that of the decode map (R100, R101). -/
theorem validateSignature_iff (h : HeaderBuf) :
    validateSignature (signatureBytes h) = true ↔ signatureField (headerWord h) = Config.signatureWord := by
  rw [signatureField_headerWord_iff, validateSignature, beq_iff_eq, signatureBytes]
  constructor
  · intro e k hk
    have := congrArg (fun l => l[k]?) e
    simpa [List.getElem?_take, hk, show k < 16 by omega] using this
  · intro e
    refine List.ext_getElem (by simp [Config.sigLen]) fun k h1 h2 => ?_
    have hk : k < 12 := by simpa using h2
    simpa using e k hk

/-- What FHD can answer (R110): one of its four errors, or a header of a known family with the buffer's fields. -/
theorem decodeHeader_cases (h : HeaderBuf) :
    (∃ e, decodeHeader h = .error e ∧ (e = .signatureMismatch ∨ e = .unsupportedVersion ∨
        e = .unsupportedCommand ∨ e = .unknownAddressFamily)) ∨
      ∃ hd, decodeHeader h = .ok hd ∧ hd.family = hiNibble h[13] ∧ hd.protocol = loNibble h[13] ∧
        hd.addressLength = be16 h[14] h[15] ∧ (hd.family = 1#4 ∨ hd.family = 2#4) := by
  simp only [decodeHeader]
  split_ifs with h1 h2 h3 h4 <;> simp
  simpa [or_iff_not_imp_left] using h4

/-- `pos` is the sum of the counters, in seventeen bits that hold it (R26). -/
theorem pos_toNat (s : State) : s.pos.toNat = s.hcnt.toNat + s.acnt.toNat := by
  have := s.hcnt.isLt
  have := s.acnt.isLt
  simp [State.pos]
  omega

/-- What stepping an instance can do (R230): it puts that instance's next state in the instance's place. -/
theorem stepInstance_eq_some {k : Nat} {platform next : List State} :
    stepInstance k platform = some next ↔
      ∃ s t, platform[k]? = some s ∧ step s = .next t ∧ next = platform.set k t := by
  unfold stepInstance
  cases h : platform[k]? with
  | none => simp
  | some s => cases hs : step s <;> simp [hs, eq_comm]

end Sys2Proof.Machine
end

