-- ==== Sys2Proof/Laws/PerInstr.lean ====
section
/-! SUPPORT. What is proved instruction by instruction: the encoding of a well-formed instruction stands in the
instruction's own format and row (R76, R77, R78). -/

namespace Sys2Proof.Laws

/-- The row of R76 that an instruction is named after; the events and `CFGW` have none. -/
def headerFormOf : Instr → Option HeaderForm
  | .proxyInet4 _ _ => some .proxyInet4
  | .proxyInet6 _ _ => some .proxyInet6
  | .rejFamily _ _ _ => some .rejFamily
  | .rejCommand _ _ _ _ => some .rejCommand
  | .rejVersion _ _ _ _ _ => some .rejVersion
  | .rejSignature _ _ _ _ _ _ => some .rejSignature
  | .rst => none
  | .clr => none
  | .timeout => none
  | .ioerr => none
  | .byte _ => none
  | .eof => none
  | .noEvent => none
  | .cfgw _ => none

/-- The row that an encoding falls in, for the format it stands in. -/
def EncodesOwnRow.Statement (i : Instr) : Prop :=
  i.wellFormed = true →
    match encode i with
    | .h16 w => headerFormOf i = some (classifyHeader w)
    | .ev _ _ => headerFormOf i = none
    | .cfg c _ => headerFormOf i = none ∧ rowCfgw.hits c = true

theorem EncodesOwnRow.proxyInet4 (p : Nibble) (l : Half) : EncodesOwnRow.Statement (.proxyInet4 p l) := by
  intro _
  simp [encode, headerFormOf, classifyHeader_eq]

theorem EncodesOwnRow.proxyInet6 (p : Nibble) (l : Half) : EncodesOwnRow.Statement (.proxyInet6 p l) := by
  intro _
  simp [encode, headerFormOf, classifyHeader_eq, Config.famInet6]

theorem EncodesOwnRow.rejFamily (f p : Nibble) (l : Half) : EncodesOwnRow.Statement (.rejFamily f p l) := by
  intro h
  simp_all [encode, headerFormOf, classifyHeader_eq, Instr.wellFormed, Instr.illFormed]

theorem EncodesOwnRow.rejCommand (c f p : Nibble) (l : Half) : EncodesOwnRow.Statement (.rejCommand c f p l) := by
  intro h
  simp_all [encode, headerFormOf, classifyHeader_eq, Instr.wellFormed, Instr.illFormed]

theorem EncodesOwnRow.rejVersion (v c f p : Nibble) (l : Half) :
    EncodesOwnRow.Statement (.rejVersion v c f p l) := by
  intro h
  simp_all [encode, headerFormOf, classifyHeader_eq, Instr.wellFormed, Instr.illFormed]

theorem EncodesOwnRow.rejSignature (g : BitVec 96) (v c f p : Nibble) (l : Half) :
    EncodesOwnRow.Statement (.rejSignature g v c f p l) := by
  intro h
  simp_all [encode, headerFormOf, classifyHeader_eq, Instr.wellFormed, Instr.illFormed]

theorem EncodesOwnRow.rst : EncodesOwnRow.Statement .rst := fun _ => rfl

theorem EncodesOwnRow.clr : EncodesOwnRow.Statement .clr := fun _ => rfl

theorem EncodesOwnRow.timeout : EncodesOwnRow.Statement .timeout := fun _ => rfl

theorem EncodesOwnRow.ioerr : EncodesOwnRow.Statement .ioerr := fun _ => rfl

theorem EncodesOwnRow.byte (b : Byte) : EncodesOwnRow.Statement (.byte b) := fun _ => rfl

theorem EncodesOwnRow.eof : EncodesOwnRow.Statement .eof := fun _ => rfl

theorem EncodesOwnRow.noEvent : EncodesOwnRow.Statement .noEvent := fun _ => rfl

theorem EncodesOwnRow.cfgw (v : BitVec 2) : EncodesOwnRow.Statement (.cfgw v) := fun _ => ⟨rfl, rfl⟩

end Sys2Proof.Laws
end

