-- ==== Sys2Proof/Tests/Slice0.lean ====
section
/-! SUPPORT. Tests. Expected values come from the vectors of 95_test_vectors.md (V, H, A, L, T, K, named in each
comment), from the table's digits, or by hand from a rule. The `witness_` theorems show for each statement of
Certificates/Slice0 that its hypotheses are met together. -/

namespace Sys2Proof.Tests
open Sys2Proof.Machine

/-! ## WellFormed: each check refuses a term -/

theorem test_illFormed_family4 : (Instr.rejFamily 1#4 1#4 12#16).illFormed = some .familyAccepted := by decide
theorem test_illFormed_family6 : (Instr.rejFamily 2#4 1#4 12#16).illFormed = some .familyAccepted := by decide
theorem test_illFormed_command : (Instr.rejCommand 1#4 1#4 1#4 12#16).illFormed = some .commandAccepted := by decide
theorem test_illFormed_version : (Instr.rejVersion 2#4 0#4 1#4 1#4 12#16).illFormed = some .versionAccepted := by
  decide
theorem test_illFormed_signature :
    (Instr.rejSignature 0x0D0A0D0A000D0A51524F540A#96 1#4 1#4 1#4 1#4 12#16).illFormed = some .signatureAccepted := by
  decide
theorem test_wellFormed_local : (Instr.rejCommand 0#4 0#4 0#4 0#16).wellFormed = true := by decide

/-! ## The rows against the digits of spec/opcode_table.json -/

theorem test_rows_match : [HeaderForm.proxyInet4, .proxyInet6, .rejFamily, .rejCommand, .rejVersion,
      .rejSignature].map (fun f => f.row.bits) =
    [0x0D0A0D0A000D0A51524F540A21100000#128, 0x0D0A0D0A000D0A51524F540A21200000#128,
      0x0D0A0D0A000D0A51524F540A21000000#128, 0x0D0A0D0A000D0A51524F540A20000000#128,
      0x0D0A0D0A000D0A51524F540A00000000#128, 0x00000000000000000000000000000000#128] := by decide
theorem test_rows_mask : [HeaderForm.proxyInet4, .proxyInet6, .rejFamily, .rejCommand, .rejVersion,
      .rejSignature].map (fun f => f.row.mask) =
    [0xFFFFFFFFFFFFFFFFFFFFFFFFFFF00000#128, 0xFFFFFFFFFFFFFFFFFFFFFFFFFFF00000#128,
      0xFFFFFFFFFFFFFFFFFFFFFFFFFF000000#128, 0xFFFFFFFFFFFFFFFFFFFFFFFFF0000000#128,
      0xFFFFFFFFFFFFFFFFFFFFFFFF00000000#128, 0x00000000000000000000000000000000#128] := by decide

/-! ## Decoding: each row's word, written out from R71, R77 and R78 -/

/-- H1. -/
theorem test_decode_proxyInet4 :
    decode (.h16 0x0D0A0D0A000D0A51524F540A2111000C#128) = .ok (.proxyInet4 1#4 12#16) := by decide
/-- H12. -/
theorem test_decode_proxyInet6 :
    decode (.h16 0x0D0A0D0A000D0A51524F540A21210024#128) = .ok (.proxyInet6 1#4 36#16) := by decide
/-- H10. -/
theorem test_decode_rejFamily :
    decode (.h16 0x0D0A0D0A000D0A51524F540A213100D8#128) = .ok (.rejFamily 3#4 1#4 216#16) := by decide
/-- H8. -/
theorem test_decode_rejCommand :
    decode (.h16 0x0D0A0D0A000D0A51524F540A2F11000C#128) = .ok (.rejCommand 15#4 1#4 1#4 12#16) := by decide
/-- H3: the version goes first, though command and family are wrong too. -/
theorem test_decode_rejVersion :
    decode (.h16 0x0D0A0D0A000D0A51524F540A1FF10000#128) = .ok (.rejVersion 1#4 15#4 15#4 1#4 0#16) := by decide
/-- V4: the last of the ninety-six bits changed. -/
theorem test_decode_rejSignature :
    decode (.h16 0x0D0A0D0A000D0A51524F548A2111000C#128) =
      .ok (.rejSignature 0x0D0A0D0A000D0A51524F548A#96 2#4 1#4 1#4 1#4 12#16) := by decide
theorem test_decode_rst : decode (.ev 0b111111#6 0x47#8) = .ok .rst := by decide
theorem test_decode_clr : decode (.ev 0b011111#6 0x47#8) = .ok .clr := by decide
/-- T5. -/
theorem test_decode_timeout : decode (.ev 0b001100#6 0#8) = .ok .timeout := by decide
/-- T10. -/
theorem test_decode_ioerr : decode (.ev 0b000111#6 0x50#8) = .ok .ioerr := by decide
/-- T7. -/
theorem test_decode_byte : decode (.ev 0b000011#6 0x0D#8) = .ok (.byte 0x0D#8) := by decide
theorem test_decode_eof : decode (.ev 0b000001#6 0#8) = .ok .eof := by decide
theorem test_decode_noEvent : decode (.ev 0b000000#6 0#8) = .ok .noEvent := by decide
theorem test_decode_cfgw : decode (.cfg 0b01#2 0b10#2) = .ok (.cfgw 0b10#2) := by decide
/-- K9. -/
theorem test_decode_cfgw_under_rst : decode (.cfg 0b11#2 0b11#2) = .error .configWriteUnderReset := by decide
theorem test_decode_no_cfgw : decode (.cfg 0b00#2 0b11#2) = .error .noConfigWrite := by decide
theorem test_decode_short_bytes : decodeBytes [0x0D#8, 0x0A#8] = .error .headerLength := by decide
theorem test_table_word : decodeTableWord 128 0x0D0A0D0A000D0A51524F540A21100000 = some (.proxyInet4 0#4 0#16) := by
  decide
theorem test_table_event : decodeTableWord 8 0b000010 = some (.byte 0#8) := by decide

/-! ## States for the tests -/

/-- The state a result gives, if it gives one. -/
def nextOf : Result → Option State
  | .next s => some s
  | .fault _ => none
  | .refused _ => none

/-- A state in AWAIT_HDR with the first `n` bytes of a header word taken. -/
def inHeader (w : BitVec 128) (n : Nat) : State :=
  { State.reset with
    hcnt := BitVec.ofNat 5 n
    hbuf := (headerBytes w).mapFinIdx fun i b _ => if i < n then b else 0#8 }

/-- A state with a whole header taken and `n` address bytes, all of them 0. -/
def inAddress (st : SeqState) (w : BitVec 128) (n : Nat) : State :=
  { State.reset with st := st, hcnt := 16#5, hbuf := headerBytes w, acnt := BitVec.ofNat 16 n }

/-- hdr4 of 95_test_vectors.md. -/
def hdr4 : BitVec 128 := 0x0D0A0D0A000D0A51524F540A2111000C#128

/-- hdr6 of 95_test_vectors.md. -/
def hdr6 : BitVec 128 := 0x0D0A0D0A000D0A51524F540A21210024#128

/-- What the vectors list of an end state: `st`, `err`, `io_cause`, `pos`, `disp`. -/
def shown (r : Result) : Option (BitVec 2 × BitVec 4 × Bool × BitVec 17 × BitVec 2) :=
  (nextOf r).map fun s => (s.st.code, s.err, s.ioCause, s.pos, s.disp.code)

/-! ## Meanings -/

/-- H1. -/
theorem test_proxyInet4 : shown (exec (.proxyInet4 1#4 12#16) State.reset) = some (1#2, 0#4, false, 16#17, 0#2) := by
  decide
/-- H16. -/
theorem test_proxyInet4_empty :
    shown (exec (.proxyInet4 1#4 0#16) State.reset) = some (3#2, 7#4, false, 16#17, 2#2) := by decide
/-- H12: byte 13 of the buffer is 21. -/
theorem test_proxyInet6 :
    (nextOf (exec (.proxyInet6 1#4 36#16) State.reset)).map (fun s => (s.st, s.hbuf[13], s.alen)) =
      some (.awaitAddr, 0x21#8, 36#16) := by decide
/-- H10. -/
theorem test_rejFamily :
    shown (exec (.rejFamily 3#4 1#4 216#16) State.reset) = some (3#2, 6#4, false, 16#17, 2#2) := by decide
/-- K2. -/
theorem test_rejCommand_pass :
    shown (exec (.rejCommand 0#4 0#4 0#4 0#16) { State.reset with cfg := 0b10#2 }) =
      some (3#2, 5#4, false, 16#17, 3#2) := by decide
/-- K7. -/
theorem test_rejVersion :
    shown (exec (.rejVersion 1#4 1#4 1#4 1#4 12#16) { State.reset with cfg := 0b11#2 }) =
      some (3#2, 4#4, false, 16#17, 2#2) := by decide
/-- K5. -/
theorem test_rejSignature_pass :
    shown (exec (.rejSignature 0#96 0#4 0#4 0#4 0#4 0#16) { State.reset with cfg := 0b01#2 }) =
      some (3#2, 3#4, false, 16#17, 3#2) := by decide
/-- R173. -/
theorem test_rst : shown (exec .rst (inAddress .rejected hdr4 12)) = some (0#2, 0#4, false, 0#17, 0#2) := by decide
/-- K10: the configuration stays. -/
theorem test_clr :
    (nextOf (exec .clr { inAddress .done hdr4 12 with cfg := 0b01#2 })).map (fun s => (s.st, s.pos, s.cfg)) =
      some (.awaitHdr, 0#17, 0b01#2) := by decide
/-- T6: the sixteenth byte is not there. -/
theorem test_timeout : shown (exec .timeout (inHeader hdr4 15)) = some (3#2, 8#4, false, 15#17, 2#2) := by decide
/-- T13. -/
theorem test_timeout_done : shown (exec .timeout (inAddress .done hdr4 12)) = some (2#2, 0#4, false, 28#17, 1#2) := by
  decide
/-- T3. -/
theorem test_ioerr_header : shown (exec .ioerr (inHeader hdr4 2)) = some (3#2, 1#4, true, 2#17, 2#2) := by decide
/-- T10. -/
theorem test_ioerr_address :
    shown (exec .ioerr (inAddress .awaitAddr hdr4 11)) = some (3#2, 2#4, true, 27#17, 2#2) := by decide
/-- H1 by its sixteenth byte. -/
theorem test_byte_sixteenth :
    shown (exec (.byte 0x0C#8) (inHeader hdr4 15)) = some (1#2, 0#4, false, 16#17, 0#2) := by decide
/-- L10 by its last byte. -/
theorem test_byte_last :
    shown (exec (.byte 0xBB#8) (inAddress .awaitAddr hdr6 35)) = some (2#2, 0#4, false, 52#17, 1#2) := by decide
/-- T2. -/
theorem test_eof_header : shown (exec .eof (inHeader hdr4 10)) = some (3#2, 1#4, false, 10#17, 2#2) := by decide
/-- T8. -/
theorem test_eof_address :
    shown (exec .eof (inAddress .awaitAddr hdr4 4)) = some (3#2, 2#4, false, 20#17, 2#2) := by decide
/-- T17. -/
theorem test_noEvent : nextOf (exec .noEvent State.reset) = some State.reset := by decide
/-- K3. -/
theorem test_cfgw :
    shown (exec (.cfgw 0b00#2) { inAddress .rejected hdr4 0 with err := 5#4, cfg := 0b10#2 }) =
      some (3#2, 5#4, false, 16#17, 2#2) := by decide

/-! ## One cycle -/

/-- T12: the last byte is taken though `in_eof` is up. -/
theorem test_cycle_byte_beats_eof :
    shown (cycle (inAddress .awaitAddr hdr4 11) { inValid := true, inData := 0x50#8, inEof := true }) =
      some (2#2, 0#4, false, 28#17, 1#2) := by decide
/-- T15: an application byte is never taken. -/
theorem test_cycle_terminal_byte :
    shown (cycle (inAddress .done hdr4 12) (.scriptByte 0x47#8)) = some (2#2, 0#4, false, 28#17, 1#2) := by decide
/-- K8, its last cycle: `CLR` and `CFGW` both happen. -/
theorem test_cycle_clr_cfgw :
    (nextOf (cycle { inHeader hdr4 3 with cfg := 0b11#2 } (Pins.withCfgw 0b10#2 .scriptClr))).map
      (fun s => (s.st, s.pos, s.cfg)) = some (.awaitHdr, 0#17, 0b10#2) := by decide
/-- K9: `RST` suppresses the write. -/
theorem test_cycle_rst_cfgw :
    nextOf (cycle { State.reset with cfg := 0b10#2 } (Pins.withCfgw 0b11#2 .scriptRst)) = some State.reset := by decide
/-- The words `CFGW` can be told from `EOF` by their own width (log entry 6). -/
theorem test_table_cfgw : decodeTableWord 2 1 = some (.cfgw 0#2) := by decide
/-- A header word placed by the interface is run by the next step. -/
theorem test_withFetchWord_header :
    shown (step (State.reset.withFetchWord 128 0x0D0A0D0A000D0A51524F540A2111000C)) =
      some (1#2, 0#4, false, 16#17, 0#2) := by decide

/-! ## SIGV and the views -/

/-- V1 and V8. -/
theorem test_signature :
    validateSignature [0x0D#8, 0x0A#8, 0x0D#8, 0x0A#8, 0x00#8, 0x0D#8, 0x0A#8, 0x51#8, 0x52#8, 0x4F#8, 0x54#8,
      0x0A#8] = true ∧
    validateSignature [0x0D#8, 0x0A#8, 0x0D#8, 0x0A#8, 0x00#8, 0x0D#8, 0x0A#8, 0x51#8, 0x55#8, 0x49#8, 0x54#8,
      0x0A#8] = false := by decide
/-- A4: the ports show the byte order. -/
theorem test_inet4_block :
    (inet4Endpoints [0xC0#8, 0xA8#8, 0#8, 1#8, 0x0A#8, 0#8, 0#8, 2#8, 1#8, 0#8, 0#8, 1#8]).ports =
      ⟨0xC0A80001#128, 0x0A000002#128, 256#16, 1#16⟩ := by decide
/-- Reset leaves `in_ready` up (R41). -/
theorem test_reset_ready : State.reset.inReady = true := by decide

/-! ## Witnesses -/

theorem witness_DecodeEncodeAgree :
    (Instr.rejFamily 0#4 0#4 0#16).wellFormed = true ∧ (Instr.rejSignature 0#96 2#4 1#4 1#4 0#4 0#16).wellFormed = true ∧
      (Instr.cfgw 3#2).wellFormed = true := by decide
theorem witness_ConfigWriteDecoded :
    ({ cfgWe := true } : Pins).rst = false ∧ ({ cfgWe := true } : Pins).cfgWe = true ∧
      Pins.scriptRst.rst = true ∧ ({} : Pins).rst = false ∧ ({} : Pins).cfgWe = false := by decide
theorem witness_SignatureBitFlipRejected : validateSignature (signatureBytes (headerBytes hdr4)) = true := by decide
/-- One header for each of the four errors, each at the first value that breaks only its own check, and one that breaks
none. -/
theorem witness_HeaderErrorPriority :
    validateSignature (signatureBytes (headerBytes 0#128)) = false ∧
    (let h := headerBytes 0x0D0A0D0A000D0A51524F540A1111000C#128
     validateSignature (signatureBytes h) = true ∧ hiNibble h[12] ≠ 2#4) ∧
    (let h := headerBytes 0x0D0A0D0A000D0A51524F540A2011000C#128
     validateSignature (signatureBytes h) = true ∧ hiNibble h[12] = 2#4 ∧ loNibble h[12] ≠ 1#4) ∧
    (let h := headerBytes 0x0D0A0D0A000D0A51524F540A2101000C#128
     validateSignature (signatureBytes h) = true ∧ hiNibble h[12] = 2#4 ∧ loNibble h[12] = 1#4 ∧
       hiNibble h[13] ≠ 1#4 ∧ hiNibble h[13] ≠ 2#4) ∧
    (let h := headerBytes hdr6
     validateSignature (signatureBytes h) = true ∧ hiNibble h[12] = 2#4 ∧ loNibble h[12] = 1#4 ∧
       hiNibble h[13] = 2#4) := by decide
/-- Eleven, twelve, thirty-five and thirty-six bytes, and the families next to 1 and 2. -/
theorem witness_BlockFamilyAndLengthChecked :
    (List.replicate 11 0#8).length < 12 ∧ 12 ≤ (List.replicate 12 0#8).length ∧
      (List.replicate 35 0#8).length < 36 ∧ 36 ≤ (List.replicate 36 0#8).length ∧
      0#4 ≠ 1#4 ∧ 0#4 ≠ 2#4 ∧ 3#4 ≠ 1#4 ∧ 3#4 ≠ 2#4 := by decide
theorem witness_HardwareAddressDecoderAgrees :
    (List.replicate 40 7#8).length ≤ 65535 ∧
      ∀ k : Fin 36, k.val < (List.replicate 40 7#8).length →
        (List.replicate 40 7#8)[k.val]? = some (Vector.replicate 36 7#8)[k] := by decide
theorem witness_EndpointsRoundTrip :
    (⟨[1#8, 2#8, 3#8, 4#8], [5#8, 6#8, 7#8, 8#8], 80#16, 443#16⟩ : Endpoints).sourceIp.length = 4 ∧
      (⟨List.replicate 16 1#8, List.replicate 16 2#8, 0#16, 65535#16⟩ : Endpoints).destinationIp.length = 16 := by
  decide
/-- The accepted forms, at the least and the greatest length. -/
theorem witness_ProxyAccepted : State.reset.st = .awaitHdr ∧ 1#16 ≠ 0#16 ∧ 65535#16 ≠ 0#16 := by decide
/-- For EmptyAddressBlockRejected and the four rejecting forms. -/
theorem witness_RejectedForms : (inHeader hdr4 15).st = .awaitHdr := by decide
/-- For NoneChangesNothing. -/
theorem witness_NoneChangesNothing : State.reset.waiting ∧ (Pins.scriptByte 0#8).inValid = true := by decide
/-- The first and the last byte that HeaderByteStored speaks of. -/
theorem witness_HeaderByteStored :
    State.reset.st = .awaitHdr ∧ State.reset.hcnt.toNat < 15 ∧ (inHeader hdr4 14).st = .awaitHdr ∧
      (inHeader hdr4 14).hcnt.toNat < 15 := by decide
/-- For HeaderCompletingBeat and HeaderBeatRunsDecodedForm. -/
theorem witness_HeaderCompletingBeat : (inHeader hdr4 15).st = .awaitHdr ∧ (inHeader hdr4 15).hcnt = 15#5 := by decide
/-- A byte inside the block, and the last one. -/
theorem witness_AddressByteTaken :
    (inAddress .awaitAddr hdr4 0).st = .awaitAddr ∧
      (inAddress .awaitAddr hdr4 0).acnt.toNat < (inAddress .awaitAddr hdr4 0).alen.toNat ∧
      (inAddress .awaitAddr hdr6 35).acnt.toNat < (inAddress .awaitAddr hdr6 35).alen.toNat := by decide
/-- The four clauses at 12, 11, 36 and 35. -/
theorem witness_FamilyMinimumDecidesTheRun :
    (let s := inAddress .awaitAddr hdr4 11
     s.st = .awaitAddr ∧ s.acnt.toNat + 1 = s.alen.toNat ∧ s.fam = 1#4 ∧ 12 ≤ s.alen.toNat ∧
       (nextOf (exec (.byte 0#8) s)).isSome = true) ∧
    (let s := inAddress .awaitAddr 0x0D0A0D0A000D0A51524F540A2111000B#128 10
     s.acnt.toNat + 1 = s.alen.toNat ∧ s.fam = 1#4 ∧ s.alen.toNat < 12 ∧
       (nextOf (exec (.byte 0#8) s)).isSome = true) ∧
    (let s := inAddress .awaitAddr hdr6 35
     s.acnt.toNat + 1 = s.alen.toNat ∧ s.fam = 2#4 ∧ 36 ≤ s.alen.toNat ∧
       (nextOf (exec (.byte 0#8) s)).isSome = true) ∧
    (let s := inAddress .awaitAddr 0x0D0A0D0A000D0A51524F540A21210023#128 34
     s.acnt.toNat + 1 = s.alen.toNat ∧ s.fam = 2#4 ∧ s.alen.toNat < 36 ∧
       (nextOf (exec (.byte 0#8) s)).isSome = true) := by decide
/-- For NoByteEventInTerminalState, TerminatorsIgnoredAfterTheEnd and TerminalStatesStay. -/
theorem witness_TerminalStates :
    (inAddress .done hdr4 12).terminal ∧ (inAddress .rejected hdr4 12).terminal ∧
      (inAddress .done hdr4 12).resetSeen = true ∧ (Pins.scriptByte 0x47#8).rst = false ∧
      (Pins.scriptByte 0x47#8).clr = false := by decide
/-- For EofWhileWaiting, IoerrWhileWaiting and TimeoutWhileWaiting. -/
theorem witness_WaitingStates :
    (inHeader hdr4 0).st = .awaitHdr ∧ (inAddress .awaitAddr hdr4 0).st = .awaitAddr ∧
      (inHeader hdr4 0).waiting ∧ (inAddress .awaitAddr hdr4 0).waiting := by decide
/-- For the same-cycle clauses of ClrRearmsKeepingConfig, IoerrWhileWaiting, TimeoutWhileWaiting and
CfgwWritesPolicyOnly: K8's `CLR ; CFGW 10`, T10, T5, K9. -/
theorem witness_SameCycle :
    (Pins.withCfgw 0b10#2 .scriptClr).rst = false ∧ (Pins.withCfgw 0b10#2 .scriptClr).clr = true ∧
    (Pins.withCfgw 0b10#2 .scriptClr).cfgWe = true ∧ State.reset.resetSeen = true ∧
    (nextOf (exec (reduce State.reset (Pins.withCfgw 0b10#2 .scriptClr)) State.reset)).isSome = true ∧
    (let p : Pins := { inErr := true, inValid := true }
     p.rst = false ∧ p.clr = false ∧ p.timeout = false ∧ p.inErr = true) ∧
    (let p : Pins := { timeout := true, inErr := true }
     p.rst = false ∧ p.clr = false ∧ p.timeout = true) ∧
    (Pins.withCfgw 0b11#2 .scriptRst).rst = true ∧
    (nextOf (cycle State.reset (Pins.withCfgw 0b11#2 .scriptRst))).isSome = true := by decide
/-- T6 and T10: a byte, and for the second also an end of stream, offered in the same cycle. -/
theorem witness_TerminatorsBeatByteAndEof :
    (let p : Pins := { timeout := true, inValid := true, inData := 0x0C#8 }
     (inHeader hdr4 15).resetSeen = true ∧ (inHeader hdr4 15).waiting ∧ p.rst = false ∧ p.clr = false ∧
       p.cfgWe = false ∧ p.timeout = true) ∧
    (let p : Pins := { inErr := true, inValid := true, inData := 0x50#8, inEof := true }
     (inAddress .awaitAddr hdr4 11).waiting ∧ p.timeout = false ∧ p.inErr = true) := by decide

theorem decodeHeader_hdr4 : decodeHeader (headerBytes hdr4) = .ok ⟨2#4, 1#4, 1#4, 1#4, 12#16⟩ ∧
    (inAddress .awaitAddr hdr4 11).alen = 12#16 := by decide

theorem headerAccepted_hdr4 (st : SeqState) (n : Nat) : (inAddress st hdr4 n).headerAccepted :=
  ⟨⟨2#4, 1#4, 1#4, 1#4, 12#16⟩, decodeHeader_hdr4.1, decodeHeader_hdr4.2.symm⟩

/-- Every state of `inAddress` in AWAIT_ADDR over hdr4 satisfies R40. -/
theorem inv_inAddress_awaitAddr : (inAddress .awaitAddr hdr4 11).Inv :=
  { awaitHdr := by decide
    awaitAddr := fun _ => ⟨by decide, headerAccepted_hdr4 _ _, by decide⟩
    done := by intro h; cases h
    rejected := by decide, errZero := by decide, hbufTail := by decide, abufTail := by decide
    posSum := by decide, errOne := by decide, errHeader := by decide, errTwo := by decide
    errSeven := by decide }

/-- A finished run over hdr4 satisfies R40. -/
theorem inv_inAddress_done : (inAddress .done hdr4 12).Inv :=
  { awaitHdr := by decide
    awaitAddr := by intro h; cases h
    done := fun _ => ⟨by decide, headerAccepted_hdr4 _ _, by decide⟩
    rejected := by decide, errZero := by decide, hbufTail := by decide, abufTail := by decide
    posSum := by decide, errOne := by decide, errHeader := by decide, errTwo := by decide
    errSeven := by decide }

/-- A header in progress satisfies R40. -/
theorem inv_inHeader : (inHeader hdr4 15).Inv :=
  { awaitHdr := by decide
    awaitAddr := by intro h; cases h
    done := by intro h; cases h
    rejected := by decide, errZero := by decide, hbufTail := by decide, abufTail := by decide
    posSum := by decide, errOne := by decide, errHeader := by decide, errTwo := by decide
    errSeven := by decide }

/-- For PositionCountsConsumedBytes and ByteIsReadAtPosition, in both waiting states. -/
theorem witness_PositionCountsConsumedBytes :
    ((inHeader hdr4 15).Inv ∧ (inHeader hdr4 15).waiting ∧ ∃ t, exec (.byte 12#8) (inHeader hdr4 15) = .next t) ∧
    ((inAddress .awaitAddr hdr4 11).Inv ∧ (inAddress .awaitAddr hdr4 11).waiting ∧
      ∃ t, exec (.byte 80#8) (inAddress .awaitAddr hdr4 11) = .next t) ∧
    (∃ t, exec .noEvent State.reset = .next t) ∧ (∃ t, exec .clr State.reset = .next t) ∧
    (inAddress .done hdr4 12).Inv ∧ (inAddress .done hdr4 12).st = .done :=
  ⟨⟨inv_inHeader, by decide, exec_next _ _⟩, ⟨inv_inAddress_awaitAddr, by decide, exec_next _ _⟩,
    exec_next _ _, exec_next _ _, inv_inAddress_done, by decide⟩
/-- The five cases of R31. -/
theorem witness_DispositionAdvice :
    State.reset.waiting ∧ (inAddress .done hdr4 12).st = .done ∧
    (let s := { inAddress .rejected hdr4 0 with err := 3#4, cfg := 0b01#2 }
     s.st = .rejected ∧ s.err = 3#4 ∧ s.cfg.getLsbD 0 = true) ∧
    (let s := { inAddress .rejected hdr4 0 with err := 5#4, cfg := 0b10#2 }
     s.st = .rejected ∧ s.err = 5#4 ∧ s.cfg.getLsbD 1 = true) ∧
    (let s := { inAddress .rejected hdr4 0 with err := 5#4, cfg := 0b01#2 }
     s.st = .rejected ∧ ¬(s.err = 3#4 ∧ s.cfg.getLsbD 0 = true) ∧ ¬(s.err = 5#4 ∧ s.cfg.getLsbD 1 = true)) := by
  decide
theorem witness_HeaderViewShown :
    (inHeader hdr4 15).st ≠ .done ∧ (inAddress .done hdr4 12).st = .done ∧ (inAddress .done hdr4 12).Inv :=
  ⟨by decide, by decide, inv_inAddress_done⟩
theorem witness_EndpointViewShown :
    (inHeader hdr4 15).st ≠ .done ∧
    (inAddress .done hdr4 12).st = .done ∧ (inAddress .done hdr4 12).hbuf[13].extractLsb' 4 4 = 1#4 ∧
    (inAddress .done hdr6 36).hbuf[13].extractLsb' 4 4 = 2#4 := by decide
/-- A cycle with a configuration write, one without, one with `rst`, and an exhausted list. -/
theorem witness_StepRunsDecodedEvent :
    (∀ p ∈ [Pins.withCfgw 0b10#2 .scriptClr, .scriptByte 0x0D#8, Pins.withCfgw 0b11#2 .scriptRst],
      ∃ i, decode (.ev (eventVector State.reset p) p.inData) = .ok i) ∧
    (Pins.withCfgw 0b10#2 .scriptClr).cfgWe = true ∧ (Pins.scriptByte 0x0D#8).cfgWe = false ∧
    State.reset.inputs = [] ∧ State.reset.resetSeen = true :=
  ⟨fun _ _ => ⟨_, rfl⟩, by decide⟩
/-- For ResetWinsOverEverything and StepIsTotalAfterReset. -/
theorem witness_AfterReset : Pins.scriptRst.rst = true ∧ State.reset.resetSeen = true := by decide
theorem witness_NoStepBeforeFirstReset :
    (let s := { State.reset with resetSeen := false, err := 12#4 }
     s.resetSeen = false ∧ s.nextPins.rst = false) ∧
    (let s := { State.reset with resetSeen := false, err := 12#4, inputs := [.scriptRst] }
     s.resetSeen = false ∧ s.nextPins.rst = true) := by decide
theorem witness_StepKeepsInvariants :
    (inHeader hdr4 15).Inv ∧ ∃ t, step (inHeader hdr4 15) = .next t :=
  ⟨inv_inHeader, _, rfl⟩
/-- For ReachableStatesSatisfyInvariants and ConfigNeverSteersTheRun: a run of one step that answers. -/
theorem witness_Runs :
    ∃ t, Host.Core.run Sys2Proof.core 1 { State.reset with inputs := [.scriptEof] } = .next t := ⟨_, rfl⟩
theorem witness_StreamCannotReachControl :
    (Pins.scriptByte 0x47#8).rst = false ∧ (Pins.scriptByte 0x47#8).clr = false ∧
      (Pins.scriptByte 0x47#8).cfgWe = false ∧ (inAddress .done hdr4 12).terminal ∧
      (inAddress .done hdr4 12).Inv ∧ ∃ t, cycle (inAddress .done hdr4 12) (.scriptByte 0x47#8) = .next t :=
  ⟨by decide, by decide, by decide, by decide, inv_inAddress_done, _, rfl⟩
theorem witness_BoundedWaitEndsEveryRun :
    let s := { State.reset with inputs := [Pins.scriptByte 0x0D#8, {}, .scriptTimeout] }
    s.resetSeen = true ∧ s.waiting ∧ (∀ p ∈ s.inputs, p.rst = false ∧ p.clr = false) ∧
      boundedWait s.inputs = true := by decide
/-- For the statements about whole runs: an armed state with any samples. -/
theorem witness_ArmedRuns :
    ({ State.reset with inputs := scriptSend (headerBytes hdr4).toList ++ [] } : State).armed ∧
    ({ State.reset with inputs := runInputs [some 0x0D#8, none] (some .eof) } : State).armed ∧
    State.reset.resetSeen = true := by decide
/-- The shortest and the longest preamble of each family that the round trips speak of. -/
theorem witness_PreambleRoundTrips :
    (⟨[1#8, 2#8, 3#8, 4#8], [5#8, 6#8, 7#8, 8#8], 80#16, 443#16⟩ : Endpoints).sourceIp.length = 4 ∧
      (⟨[1#8, 2#8, 3#8, 4#8], [5#8, 6#8, 7#8, 8#8], 80#16, 443#16⟩ : Endpoints).destinationIp.length = 4 ∧
      (⟨List.replicate 16 1#8, List.replicate 16 2#8, 0#16, 65535#16⟩ : Endpoints).sourceIp.length = 16 ∧
      (⟨List.replicate 16 1#8, List.replicate 16 2#8, 0#16, 65535#16⟩ : Endpoints).destinationIp.length = 16 ∧
      12 + 0 ≤ 65535 ∧ 12 + 65523 ≤ 65535 ∧ 36 + 0 ≤ 65535 ∧ 36 + 65499 ≤ 65535 := by decide
/-- Two instances with different samples before them, stepped to different states. -/
theorem witness_InstancesDoNotInterfere :
    let a := { State.reset with inputs := [Pins.scriptEof] }
    let b := { State.reset with inputs := [Pins.scriptTimeout] }
    (0 : Nat) ≠ 1 ∧ [a, b][0]? = some a ∧ [a, b][1]? = some b ∧
      shown (step a) = some (3#2, 1#4, false, 0#17, 2#2) ∧
      shown (step b) = some (3#2, 8#4, false, 0#17, 2#2) := by decide

end Sys2Proof.Tests
end

