-- ==== Sys2Proof/Proofs/StepEvents.lean ====
section
/-! PROOFS. How a step takes its sample (R11), and what the cycle then runs (R78, R151). -/

namespace Sys2Proof.Machine

/-- A step with samples left is a cycle on the first of them (R11). -/
theorem step_of_inputs_cons {s : State} {p : Pins} {rest : List Pins} (h : s.inputs = p :: rest) :
    step s = cycle { s with inputs := rest } p := by
  simp [step, State.popInput, State.nextPins, h]

/-- A step with no sample left is a cycle whose pins are all low (log entry 1). -/
theorem step_of_inputs_nil {s : State} (h : s.inputs = []) : step s = cycle s {} := by
  have hpop : s.popInput = s := by cases s; cases h; rfl
  simp [step, State.nextPins, hpop, h]

/-- The samples still to come do not show on the pin vector of the present cycle. -/
@[simp] theorem eventVector_inputs (s : State) (p : Pins) (l : List Pins) :
    eventVector { s with inputs := l } p = eventVector s p := rfl

/-- The event of a cycle is what its pin vector decodes to (R77, R158). -/
theorem decode_eventVector_iff {s : State} {p : Pins} {i : Instr} :
    decode (.ev (eventVector s p) p.inData) = .ok i ↔ reduce s p = i := by
  simp [decode, reduce]

/-- Pins that are all low show the zero vector: no byte is offered, so there is no beat. -/
@[simp] theorem eventVector_idle (s : State) : eventVector s {} = 0#6 := by
  simp [eventVector, beat]

/-- Pins that are all low are no event (R77). -/
@[simp] theorem reduce_idle (s : State) : reduce s {} = .noEvent := by
  rw [reduce, eventVector_idle]
  rfl

/-- A cycle with a configuration write runs `CFGW` on the state that its event leaves (R78, R151). -/
theorem cycle_of_configWrite {s t : State} {p : Pins} (hs : s.resetSeen = true)
    (he : exec (reduce s p) s = .next t) (hrst : p.rst = false) (hwe : p.cfgWe = true) :
    cycle s p = exec (.cfgw p.cfgWdata) t := by
  rw [cycle_eq (.inl hs) he, if_pos ⟨hwe, hrst⟩]
  rfl

/-- A cycle without a configuration write is its event alone (R78, R151). -/
theorem cycle_of_noConfigWrite {s t : State} {p : Pins} (hs : s.resetSeen = true)
    (he : exec (reduce s p) s = .next t) (hno : p.rst = true ∨ p.cfgWe = false) :
    cycle s p = .next t := by
  have hnot : ¬(p.cfgWe = true ∧ p.rst = false) := by
    rintro ⟨hwe, hrst⟩
    simp [hwe, hrst] at hno
  rw [cycle_eq (.inl hs) he, if_neg hnot]

/-- A cycle whose pins are all low keeps the state (R159). -/
theorem cycle_idle {s : State} (hs : s.resetSeen = true) : cycle s {} = .next s :=
  cycle_of_noConfigWrite hs (by rw [reduce_idle]; rfl) (.inr rfl)

/-- Settles O47: the step is a cycle on the sample taken, and the two cases of `configPart` are R78's. -/
theorem stepRunsDecodedEvent : Obligations.StepRunsDecodedEvent := by
  refine ⟨fun s p rest i hin hs hdec => ?_, fun s hin hs => ?_⟩
  · have hreduce : reduce { s with inputs := rest } p = i := by
      rwa [← decode_eventVector_iff, eventVector_inputs]
    obtain ⟨t, ht⟩ := exec_next i { s with inputs := rest }
    have hevent : exec (reduce { s with inputs := rest } p) { s with inputs := rest } = .next t := by
      rw [hreduce, ht]
    rw [step_of_inputs_cons hin]
    exact ⟨t, ht, cycle_of_configWrite hs hevent, cycle_of_noConfigWrite hs hevent⟩
  · rw [step_of_inputs_nil hin, cycle_idle hs]

end Sys2Proof.Machine
end

section
/-! PROOFS. What `BYTE` does in each waiting state, said once: which fields its completions write (R160, R161, R162). -/

namespace Sys2Proof.Machine

/-! ## The header-completing beat -/

/-- What the sequencer does at the header-completing beat with the answer of FHD (R160, R161). -/
def State.concludeHeader (answer : Except DecodeError Header) (s : State) : State :=
  match answer with
  | .error e => s.raise e false
  | .ok hd => s.acceptHeader hd.family hd.addressLength

@[simp] theorem State.concludeHeader_error (e : DecodeError) :
    State.concludeHeader (.error e) = State.raise e false := rfl

@[simp] theorem State.concludeHeader_ok (hd : Header) :
    State.concludeHeader (.ok hd) = State.acceptHeader hd.family hd.addressLength := rfl

/-- The rows of R76 and the step list of R110 send a complete header the same way. The checks are split in R110's
order; at each leaf the fields found so far make the form's own word the word that is run. -/
theorem runHeader_headerWord (h : HeaderBuf) (s : State) :
    runHeader (headerWord h) s = headerBeat (headerWord h) (State.concludeHeader (decodeHeader h)) s := by
  have hword := headerFields_eta (headerWord h)
  have hvalid := validateSignature_iff h
  simp only [versionField_headerWord, commandField_headerWord, familyField_headerWord,
    protocolField_headerWord, addressLengthField_headerWord] at hword
  simp only [runHeader, classifyHeader_eq, decodeHeader, versionField_headerWord, commandField_headerWord,
    familyField_headerWord, protocolField_headerWord, addressLengthField_headerWord]
  by_cases hsig : signatureField (headerWord h) = Config.signatureWord
  case neg =>
    have hinvalid : validateSignature (signatureBytes h) = false := by simpa [hsig] using hvalid
    simp [hsig, hinvalid, execRejSignature, hword]
  rw [hsig] at hword
  rw [hvalid.mpr hsig]
  by_cases hversion : hiNibble h[12] = 2#4
  case neg => simp [hsig, hversion, execRejVersion, hword]
  rw [hversion] at hword
  by_cases hcommand : loNibble h[12] = 1#4
  case neg => simp [hsig, hversion, hcommand, execRejCommand, hword]
  rw [hcommand] at hword
  by_cases hinet4 : hiNibble h[13] = 1#4
  case pos =>
    rw [hinet4] at hword
    simp [hsig, hversion, hcommand, hinet4, execProxyInet4, hword]
  by_cases hinet6 : hiNibble h[13] = 2#4
  case pos =>
    rw [hinet6] at hword
    simp [hsig, hversion, hcommand, hinet6, execProxyInet6, hword]
  simp [hsig, hversion, hcommand, hinet4, hinet6, execRejFamily, hword]

/-- Latching the header that the buffer holds already changes nothing. -/
theorem latchHeader_headerWord_hbuf {s : State} (hfull : s.hcnt = 16#5) :
    s.latchHeader (headerWord s.hbuf) = s := by
  cases s
  simp_all [State.latchHeader]

/-! ## `BYTE` in AWAIT_HDR -/

theorem exec_byte_awaitHdr (b : Byte) {s : State} (hst : s.st = .awaitHdr) :
    exec (.byte b) s = takeHeaderByte b s := by
  simp [exec, execByte, hst]

/-- A byte before the sixteenth is stored, and nothing more (R160). -/
theorem exec_byte_of_hcnt_lt (b : Byte) {s : State} (hst : s.st = .awaitHdr) (hlt : s.hcnt.toNat < 15) :
    exec (.byte b) s = .next (s.storeHeaderByte b) := by
  have hmore : s.hcnt + 1#5 < 16#5 := by bv_omega
  rw [exec_byte_awaitHdr b hst, takeHeaderByte]
  exact if_pos hmore

/-- The sixteenth byte is stored, and FHD's answer on the buffer with it says what follows (R160, R161). -/
theorem exec_byte_of_hcnt_eq (b : Byte) {s : State} (hst : s.st = .awaitHdr) (hlast : s.hcnt.toNat = 15) :
    exec (.byte b) s =
      .next ((s.storeHeaderByte b).concludeHeader (decodeHeader (s.storeHeaderByte b).hbuf)) := by
  have hfull : (s.storeHeaderByte b).hcnt = 16#5 := by
    rw [State.storeHeaderByte_hcnt]
    bv_omega
  have hnomore : ¬(s.storeHeaderByte b).hcnt < 16#5 := by rw [hfull]; decide
  rw [exec_byte_awaitHdr b hst, takeHeaderByte]
  simp only [if_neg hnomore]
  rw [runHeader_headerWord, headerBeat_awaitHdr (by simpa using hst), latchHeader_headerWord_hbuf hfull]

/-! ## `BYTE` in AWAIT_ADDR -/

/-- An address byte is stored, and ABD says what follows when it is the last one (R162). -/
theorem exec_byte_awaitAddr (b : Byte) {s : State} (hst : s.st = .awaitAddr) :
    exec (.byte b) s = .next (s.finishAddress (s.storeAddressByte b)) := by
  simp [exec, execByte, takeAddressByte, hst]

/-- In a terminal state `BYTE` changes nothing (R163, R170). -/
theorem exec_byte_terminal (b : Byte) {s : State} (hst : s.terminal) : exec (.byte b) s = .next s := by
  rcases hst with hst | hst <;> simp [exec, execByte, hst]

/-! ## What the completions leave unchanged -/

/-- The two states hold the same bytes and counters, the same `CFG` and the same fields of the model's own: they differ
in `st`, `err` and `io_cause` at most. -/
def State.SameBytes (s t : State) : Prop :=
  t = { s with st := t.st, err := t.err, ioCause := t.ioCause }

theorem State.SameBytes.refl (s : State) : s.SameBytes s := rfl

theorem sameBytes_raise (e : DecodeError) (io : Bool) (s : State) : s.SameBytes (s.raise e io) := rfl

theorem State.SameBytes.pos {s t : State} (h : s.SameBytes t) : t.pos = s.pos := by
  rw [h]
  rfl

theorem State.SameBytes.streamByte {s t : State} (h : s.SameBytes t) (off : Nat) :
    t.streamByte off = s.streamByte off := by
  rw [h]
  rfl

theorem sameBytes_acceptHeader (f : Nibble) (l : Half) (s : State) : s.SameBytes (s.acceptHeader f l) := by
  rcases acceptHeader_cases f l s with ⟨-, h⟩ | ⟨-, h⟩ <;> rw [h] <;> rfl

theorem sameBytes_concludeHeader (answer : Except DecodeError Header) (s : State) :
    s.SameBytes (s.concludeHeader answer) := by
  cases answer with
  | error e => exact sameBytes_raise e false s
  | ok hd => exact sameBytes_acceptHeader hd.family hd.addressLength s

theorem sameBytes_finishAddress (before s : State) : s.SameBytes (before.finishAddress s) := by
  rcases finishAddress_cases before s with ⟨-, h⟩ | ⟨-, ⟨e, -, h⟩ | ⟨e, -, h⟩⟩ <;> rw [h] <;> rfl

theorem sameBytes_endRun {eh ea : DecodeError} {io : Bool} {s t : State} (h : endRun eh ea io s = .next t) :
    s.SameBytes t := by
  rcases endRun_cases eh ea io s with ⟨-, hr⟩ | ⟨-, hr⟩ | ⟨-, hr⟩ <;> cases hr.symm.trans h <;> rfl

/-- In AWAIT_HDR `BYTE` leaves the bytes that the store leaves, whatever FHD answers. -/
theorem sameBytes_byte_awaitHdr {s t : State} {b : Byte} (hst : s.st = .awaitHdr) (hle : s.hcnt.toNat ≤ 15)
    (h : exec (.byte b) s = .next t) : (s.storeHeaderByte b).SameBytes t := by
  rcases Nat.lt_or_eq_of_le hle with hlt | hlast
  · cases (exec_byte_of_hcnt_lt b hst hlt).symm.trans h
    exact State.SameBytes.refl _
  · cases (exec_byte_of_hcnt_eq b hst hlast).symm.trans h
    exact sameBytes_concludeHeader _ _

/-- In AWAIT_ADDR `BYTE` leaves the bytes that the store leaves, whatever ABD answers. -/
theorem sameBytes_byte_awaitAddr {s t : State} {b : Byte} (hst : s.st = .awaitAddr)
    (h : exec (.byte b) s = .next t) : (s.storeAddressByte b).SameBytes t := by
  cases (exec_byte_awaitAddr b hst).symm.trans h
  exact sameBytes_finishAddress _ _

end Sys2Proof.Machine
end

section
/-! PROOFS. The invariants of R40: at reset, after every step, and in every state that a run reaches. -/

namespace Sys2Proof.Machine

/-! ## The clauses that do not depend on `st` -/

/-- I6 and I7 of R40: the places not written yet are zero, and the counters are within their bounds. -/
structure State.BuffersInv (s : State) : Prop where
  hbufTail : ∀ i : Fin 16, s.hcnt.toNat ≤ i.val → s.hbuf[i] = 0#8
  abufTail : ∀ k : Fin 36, min s.acnt.toNat 36 ≤ k.val → s.abuf[k] = 0#8
  posLe : s.hcnt.toNat + s.acnt.toNat ≤ 65551

theorem State.Inv.buffers {s : State} (h : s.Inv) : s.BuffersInv :=
  ⟨h.hbufTail, h.abufTail, by rw [← pos_toNat]; exact h.posSum.2⟩

/-- A header byte at `hcnt`, below 16, keeps I6 and I7. -/
theorem State.BuffersInv.storeHeaderByte {s : State} (hb : s.BuffersInv) (b : Byte) (hle : s.hcnt.toNat ≤ 15)
    (hacnt : s.acnt = 0#16) : (s.storeHeaderByte b).BuffersInv := by
  have hcount : (s.storeHeaderByte b).hcnt.toNat = s.hcnt.toNat + 1 := by
    rw [State.storeHeaderByte_hcnt]
    bv_omega
  refine ⟨fun i hi => ?_, hb.abufTail, ?_⟩
  · have hstored := storeHeaderByte_getElem b s i.val i.isLt
    rw [if_neg (by omega)] at hstored
    exact hstored.trans (hb.hbufTail i (by omega))
  · rw [hcount, State.storeHeaderByte_acnt, hacnt]
    simp
    omega

/-- An address byte that still leaves `acnt` within `alen` does not wrap the counter. -/
theorem storeAddressByte_acnt_toNat {s : State} (b : Byte) (hlt : s.acnt.toNat < s.alen.toNat) :
    (s.storeAddressByte b).acnt.toNat = s.acnt.toNat + 1 := by
  have hbound := s.alen.isLt
  rw [State.storeAddressByte_acnt]
  bv_omega

/-- An address byte below `alen` keeps I6 and I7. -/
theorem State.BuffersInv.storeAddressByte {s : State} (hb : s.BuffersInv) (b : Byte) (hfull : s.hcnt = 16#5)
    (hlt : s.acnt.toNat < s.alen.toNat) : (s.storeAddressByte b).BuffersInv := by
  have hcount := storeAddressByte_acnt_toNat b hlt
  refine ⟨hb.hbufTail, fun k hk => ?_, ?_⟩
  · have hstored := storeAddressByte_getElem b s k.val k.isLt
    rw [if_neg (by omega)] at hstored
    exact hstored.trans (hb.abufTail k (by omega))
  · have hbound := s.alen.isLt
    rw [hcount, State.storeAddressByte_hcnt, hfull]
    simp
    omega

/-! ## States without an error -/

/-- Outside REJECTED the clauses on `err` say that it is 0, and the clause of the present `st` is what is left. -/
theorem inv_of_err_eq_zero {s : State} (hb : s.BuffersInv) (hst : s.st ≠ .rejected) (herr : s.err = 0#4)
    (awaitHdr : s.st = .awaitHdr → s.hcnt.toNat ≤ 15 ∧ s.acnt = 0#16 ∧ s.err = 0#4 ∧ s.ioCause = false)
    (awaitAddr : s.st = .awaitAddr → s.hcnt = 16#5 ∧ s.headerAccepted ∧ 1 ≤ s.alen.toNat ∧
      s.acnt.toNat < s.alen.toNat ∧ s.err = 0#4 ∧ s.ioCause = false)
    (done : s.st = .done → s.hcnt = 16#5 ∧ s.headerAccepted ∧ s.acnt = s.alen ∧
      ((s.fam = 1#4 ∧ 12 ≤ s.alen.toNat) ∨ (s.fam = 2#4 ∧ 36 ≤ s.alen.toNat)) ∧
      s.err = 0#4 ∧ s.ioCause = false) : s.Inv where
  awaitHdr := awaitHdr
  awaitAddr := awaitAddr
  done := done
  rejected h := absurd h hst
  errZero := ⟨fun _ => hst, fun _ => herr⟩
  hbufTail := hb.hbufTail
  abufTail := hb.abufTail
  posSum := ⟨pos_toNat s, by rw [pos_toNat]; exact hb.posLe⟩
  errOne h := by simp [herr] at h
  errHeader h := by simp [herr] at h
  errTwo h := by simp [herr] at h
  errSeven h := by simp [herr] at h

theorem inv_of_awaitHdr {s : State} (hb : s.BuffersInv) (hst : s.st = .awaitHdr) (hle : s.hcnt.toNat ≤ 15)
    (hacnt : s.acnt = 0#16) (herr : s.err = 0#4) (hio : s.ioCause = false) : s.Inv :=
  inv_of_err_eq_zero hb (by simp [hst]) herr (fun _ => ⟨hle, hacnt, herr, hio⟩) (by simp [hst]) (by simp [hst])

theorem inv_of_awaitAddr {s : State} (hb : s.BuffersInv) (hst : s.st = .awaitAddr) (hfull : s.hcnt = 16#5)
    (hacc : s.headerAccepted) (hlt : s.acnt.toNat < s.alen.toNat) (herr : s.err = 0#4)
    (hio : s.ioCause = false) : s.Inv :=
  inv_of_err_eq_zero hb (by simp [hst]) herr (by simp [hst])
    (fun _ => ⟨hfull, hacc, by omega, hlt, herr, hio⟩) (by simp [hst])

theorem inv_of_done {s : State} (hb : s.BuffersInv) (hst : s.st = .done) (hfull : s.hcnt = 16#5)
    (hacc : s.headerAccepted) (hacnt : s.acnt = s.alen)
    (hmin : (s.fam = 1#4 ∧ 12 ≤ s.alen.toNat) ∨ (s.fam = 2#4 ∧ 36 ≤ s.alen.toNat))
    (herr : s.err = 0#4) (hio : s.ioCause = false) : s.Inv :=
  inv_of_err_eq_zero hb (by simp [hst]) herr (by simp [hst]) (by simp [hst])
    (fun _ => ⟨hfull, hacc, hacnt, hmin, herr, hio⟩)

/-! ## Entry to REJECTED -/

theorem DecodeError.code_injective : Function.Injective DecodeError.code := by
  intro e e'
  cases e <;> cases e' <;> simp [DecodeError.code]

theorem DecodeError.code_bounds (e : DecodeError) : 1 ≤ e.code.toNat ∧ e.code.toNat ≤ 8 := by
  cases e <;> decide

/-- I8 of R40: where the counters stand when an error of each kind is raised. -/
def DecodeError.fitsCounters (s : State) : DecodeError → Prop
  | .incompleteHeader => s.hcnt.toNat ≤ 15
  | .incompleteAddressBlock => s.hcnt = 16#5 ∧ s.acnt.toNat < s.alen.toNat
  | .signatureMismatch | .unsupportedVersion | .unsupportedCommand | .unknownAddressFamily =>
    s.hcnt = 16#5 ∧ s.acnt = 0#16
  | .truncatedAddressBlock => s.hcnt = 16#5 ∧ s.acnt = s.alen
  | .timeout => True

/-- Raising an error that fits the counters gives a state that R40 allows, from any state with sound buffers. -/
theorem inv_raise {e : DecodeError} {io : Bool} {s : State} (hb : s.BuffersInv) (hfits : e.fitsCounters s)
    (hio : io = true → e = .incompleteHeader ∨ e = .incompleteAddressBlock) : (s.raise e io).Inv where
  awaitHdr h := by simp at h
  awaitAddr h := by simp at h
  done h := by simp at h
  rejected _ := by
    refine ⟨e.code_bounds.1, e.code_bounds.2, fun h => ?_⟩
    rcases hio h with rfl | rfl
    · exact .inl rfl
    · exact .inr rfl
  errZero := by cases e <;> simp [DecodeError.code]
  hbufTail := hb.hbufTail
  abufTail := hb.abufTail
  posSum := ⟨pos_toNat _, by rw [pos_toNat]; exact hb.posLe⟩
  errOne h := by
    obtain rfl : e = .incompleteHeader := DecodeError.code_injective h
    exact hfits
  errHeader h := by
    rcases h with h | h | h | h
    · obtain rfl : e = .signatureMismatch := DecodeError.code_injective h
      exact hfits
    · obtain rfl : e = .unsupportedVersion := DecodeError.code_injective h
      exact hfits
    · obtain rfl : e = .unsupportedCommand := DecodeError.code_injective h
      exact hfits
    · obtain rfl : e = .unknownAddressFamily := DecodeError.code_injective h
      exact hfits
  errTwo h := by
    obtain rfl : e = .incompleteAddressBlock := DecodeError.code_injective h
    exact hfits
  errSeven h := by
    obtain rfl : e = .truncatedAddressBlock := DecodeError.code_injective h
    exact hfits

/-! ## The events -/

/-- `CFG`, `resetSeen` and `inputs` are in none of the invariants. -/
theorem State.Inv.setUnread {s : State} (h : s.Inv) (c : BitVec 2) (seen : Bool) (l : List Pins) :
    ({ s with cfg := c, resetSeen := seen, inputs := l } : State).Inv where
  awaitHdr := h.awaitHdr
  awaitAddr := h.awaitAddr
  done := h.done
  rejected := h.rejected
  errZero := h.errZero
  hbufTail := h.hbufTail
  abufTail := h.abufTail
  posSum := h.posSum
  errOne := h.errOne
  errHeader := h.errHeader
  errTwo := h.errTwo
  errSeven := h.errSeven

theorem inv_reset : State.reset.Inv :=
  inv_of_awaitHdr ⟨by simp [State.reset], by simp [State.reset], by decide⟩ rfl (by decide) rfl rfl rfl

/-- Settles O50. -/
theorem resetSatisfiesInvariants : Obligations.ResetSatisfiesInvariants := inv_reset

/-- The buffer of a header that FHD accepts has a family that ABD knows. -/
theorem State.headerAccepted.fam {s : State} (h : s.headerAccepted) : s.fam = 1#4 ∨ s.fam = 2#4 := by
  obtain ⟨hd, hok, -⟩ := h
  rcases decodeHeader_cases s.hbuf with ⟨e, herror, -⟩ | ⟨hd', hok', hfam, -, -, hknown⟩
  · simp [herror] at hok
  · rwa [hfam] at hknown

/-- The header-completing beat ends in a state that R40 allows, whatever FHD answers. -/
theorem inv_concludeHeader {s : State} (hb : s.BuffersInv) (hfull : s.hcnt = 16#5) (hacnt : s.acnt = 0#16)
    (herr : s.err = 0#4) (hio : s.ioCause = false) : (s.concludeHeader (decodeHeader s.hbuf)).Inv := by
  rcases decodeHeader_cases s.hbuf with ⟨e, herror, hkind⟩ | ⟨hd, hok, -, -, hlen, hfam⟩
  · rw [herror]
    refine inv_raise hb ?_ (by simp)
    rcases hkind with rfl | rfl | rfl | rfl <;> exact ⟨hfull, hacnt⟩
  · rw [hok, State.concludeHeader_ok]
    rcases acceptHeader_cases hd.family hd.addressLength s with ⟨hpos, h⟩ | ⟨hzero, h⟩
    · have hlt : s.acnt.toNat < s.alen.toNat := by
        rw [hacnt, State.alen, ← hlen]
        bv_omega
      rw [h]
      exact inv_of_awaitAddr ⟨hb.hbufTail, hb.abufTail, hb.posLe⟩ rfl hfull ⟨hd, hok, hlen⟩ hlt herr hio
    · have hnone : s.acnt = s.alen := by rw [hacnt, State.alen, ← hlen, hzero]
      rw [h, if_pos hfam]
      exact inv_raise hb ⟨hfull, hnone⟩ (by simp)

/-- An address block that ABD accepts has a known family and at least that family's length (R131). -/
theorem minimum_of_decodeAddressBlockHw_ok {f : Nibble} {l : Half} {a : AddrBuf} {e : Endpoints}
    (hok : decodeAddressBlockHw f l a = .ok e) : (f = 1#4 ∧ 12 ≤ l.toNat) ∨ (f = 2#4 ∧ 36 ≤ l.toNat) := by
  rcases decodeAddressBlockHw_cases f l a with ⟨hf, hl, -⟩ | ⟨hf, hl, -⟩ | ⟨-, he⟩ | ⟨-, -, he⟩
  · exact .inl ⟨hf, hl⟩
  · exact .inr ⟨hf, hl⟩
  · cases he.symm.trans hok
  · cases he.symm.trans hok

/-- Behind an accepted header the family is known, so ABD's only error is a block that is too short (R131, R134). -/
theorem truncated_of_decodeAddressBlockHw_error {f : Nibble} {l : Half} {a : AddrBuf} {e : DecodeError}
    (hf : f = 1#4 ∨ f = 2#4) (herror : decodeAddressBlockHw f l a = .error e) : e = .truncatedAddressBlock := by
  rcases decodeAddressBlockHw_cases f l a with ⟨-, -, he⟩ | ⟨-, -, he⟩ | ⟨-, he⟩ | ⟨hnot4, hnot6, -⟩
  · cases he.symm.trans herror
  · cases he.symm.trans herror
  · cases he.symm.trans herror
    rfl
  · exact absurd hf (not_or.mpr ⟨hnot4, hnot6⟩)

theorem State.Inv.byte_awaitHdr {s t : State} {b : Byte} (h : s.Inv) (hst : s.st = .awaitHdr)
    (ht : exec (.byte b) s = .next t) : t.Inv := by
  obtain ⟨hle, hacnt, herr, hio⟩ := h.awaitHdr hst
  have hb := h.buffers.storeHeaderByte b hle hacnt
  rcases Nat.lt_or_eq_of_le hle with hlt | hlast
  · cases (exec_byte_of_hcnt_lt b hst hlt).symm.trans ht
    refine inv_of_awaitHdr hb hst ?_ hacnt herr hio
    rw [State.storeHeaderByte_hcnt]
    bv_omega
  · cases (exec_byte_of_hcnt_eq b hst hlast).symm.trans ht
    refine inv_concludeHeader hb ?_ hacnt herr hio
    rw [State.storeHeaderByte_hcnt]
    bv_omega

theorem State.Inv.byte_awaitAddr {s t : State} {b : Byte} (h : s.Inv) (hst : s.st = .awaitAddr)
    (ht : exec (.byte b) s = .next t) : t.Inv := by
  obtain ⟨hfull, hacc, -, hlt, herr, hio⟩ := h.awaitAddr hst
  have hb := h.buffers.storeAddressByte b hfull hlt
  have hcount := storeAddressByte_acnt_toNat b hlt
  cases (exec_byte_awaitAddr b hst).symm.trans ht
  rcases finishAddress_cases s (s.storeAddressByte b) with ⟨hmore, hf⟩ | ⟨hlast, hanswer⟩
  · rw [hf]
    exact inv_of_awaitAddr hb hst hfull hacc (hcount ▸ hmore) herr hio
  · have hall : (s.storeAddressByte b).acnt = s.alen := BitVec.eq_of_toNat_eq (by omega)
    rcases hanswer with ⟨e, hok, hf⟩ | ⟨e, herror, hf⟩ <;> rw [hf]
    · exact inv_of_done ⟨hb.hbufTail, hb.abufTail, hb.posLe⟩ rfl hfull hacc hall
        (minimum_of_decodeAddressBlockHw_ok hok) herr hio
    · obtain rfl := truncated_of_decodeAddressBlockHw_error hacc.fam herror
      exact inv_raise hb ⟨hfull, hall⟩ (by simp)

theorem State.Inv.byte {s t : State} {b : Byte} (h : s.Inv) (ht : exec (.byte b) s = .next t) : t.Inv := by
  cases hst : s.st with
  | awaitHdr => exact h.byte_awaitHdr hst ht
  | awaitAddr => exact h.byte_awaitAddr hst ht
  | done =>
    cases (exec_byte_terminal b (.inl hst)).symm.trans ht
    exact h
  | rejected =>
    cases (exec_byte_terminal b (.inr hst)).symm.trans ht
    exact h

/-- A terminator keeps the invariants when its two kinds fit the counters of the state they are raised in. -/
theorem State.Inv.endRun {eh ea : DecodeError} {io : Bool} {s t : State} (h : s.Inv)
    (ht : Machine.endRun eh ea io s = .next t)
    (hhdr : s.st = .awaitHdr → eh.fitsCounters s) (haddr : s.st = .awaitAddr → ea.fitsCounters s)
    (hio : io = true → eh = .incompleteHeader ∧ ea = .incompleteAddressBlock) : t.Inv := by
  rcases endRun_cases eh ea io s with ⟨hst, hr⟩ | ⟨hst, hr⟩ | ⟨-, hr⟩ <;> cases hr.symm.trans ht
  · exact inv_raise h.buffers (hhdr hst) fun hset => .inl (hio hset).1
  · exact inv_raise h.buffers (haddr hst) fun hset => .inr (hio hset).2
  · exact h

/-- `EOF` and `IOERR` raise kinds 1 and 2, which fit the counters of the two waiting states. -/
theorem State.Inv.endRun_incomplete {io : Bool} {s t : State} (h : s.Inv)
    (ht : Machine.endRun .incompleteHeader .incompleteAddressBlock io s = .next t) : t.Inv := by
  refine h.endRun ht (fun hst => (h.awaitHdr hst).1) (fun hst => ?_) (fun _ => ⟨rfl, rfl⟩)
  obtain ⟨hfull, -, -, hlt, -, -⟩ := h.awaitAddr hst
  exact ⟨hfull, hlt⟩

/-- The seven events that a sample can reduce to (R77, R158). -/
theorem reduce_cases (s : State) (p : Pins) :
    reduce s p = .rst ∨ reduce s p = .clr ∨ reduce s p = .timeout ∨ reduce s p = .ioerr ∨
      reduce s p = .byte p.inData ∨ reduce s p = .eof ∨ reduce s p = .noEvent := by
  simp only [reduce, decodeEvent]
  split_ifs <;> simp

/-- Every event keeps the invariants of R40. -/
theorem State.Inv.event {s t : State} {p : Pins} (h : s.Inv) (ht : exec (reduce s p) s = .next t) : t.Inv := by
  rcases reduce_cases s p with hrst | hclr | htimeout | hioerr | hbyte | heof | hnone
  · rw [hrst] at ht
    cases ht
    exact inv_reset.setUnread 0#2 true s.inputs
  · rw [hclr] at ht
    cases ht
    exact inv_reset.setUnread s.cfg s.resetSeen s.inputs
  · rw [htimeout] at ht
    exact h.endRun ht (fun _ => trivial) (fun _ => trivial) (by simp)
  · rw [hioerr] at ht
    exact h.endRun_incomplete ht
  · rw [hbyte] at ht
    exact h.byte ht
  · rw [heof] at ht
    exact h.endRun_incomplete ht
  · rw [hnone] at ht
    cases ht
    exact h

theorem State.Inv.step {s t : State} (h : s.Inv) (ht : Machine.step s = .next t) : t.Inv := by
  obtain ⟨-, u, hu, rfl⟩ := step_cases ht
  have hpop : s.popInput.Inv := h.setUnread s.cfg s.resetSeen s.inputs.tail
  exact (hpop.event hu).setUnread _ u.resetSeen u.inputs

/-- Settles O51: the events one by one, then the configuration write, which no invariant reads. -/
theorem stepKeepsInvariants : Obligations.StepKeepsInvariants := fun _ _ h ht => h.step ht

/-! ## Runs -/

/-- A run of `k + 1` steps is a step and a run of `k`. -/
theorem run_succ_eq_next {k : Nat} {s t : State} :
    Host.Core.run Sys2Proof.core (k + 1) s = .next t ↔
      ∃ u, step s = .next u ∧ Host.Core.run Sys2Proof.core k u = .next t := by
  have hcore : Sys2Proof.core.step s = step s := rfl
  cases h : step s <;> simp [Host.Core.run, hcore, h]

/-- What holds of a state and is kept by every step holds of every state that a run from it answers. -/
theorem run_induction {P : State → Prop} (hstep : ∀ s t, P s → step s = .next t → P t) {k : Nat} {s t : State}
    (hs : P s) (hrun : Host.Core.run Sys2Proof.core k s = .next t) : P t := by
  induction k generalizing s with
  | zero =>
    cases hrun
    exact hs
  | succ k ih =>
    obtain ⟨u, hu, hrest⟩ := run_succ_eq_next.mp hrun
    exact ih (hstep s u hs hu) hrest

/-- Settles O52. -/
theorem reachableStatesSatisfyInvariants : Obligations.ReachableStatesSatisfyInvariants :=
  fun inputs _ _ hrun =>
    run_induction (fun _ _ h ht => State.Inv.step h ht) (inv_reset.setUnread 0#2 true inputs) hrun

end Sys2Proof.Machine
end

section
/-! PROOFS. `CFG` steers nothing (R29): an instruction run with another `CFG` is the instruction followed by a write of
`CFG`, and so every run answers the same state up to `CFG`. -/

namespace Sys2Proof.Machine

/-- The state with another `CFG` (R29, R172). -/
def State.setCfg (c : BitVec 2) (s : State) : State := { s with cfg := c }

theorem execCfgw_eq_setCfg (c : BitVec 2) (s : State) : execCfgw c s = .next (s.setCfg c) := rfl

@[simp] theorem State.setCfg_st (c : BitVec 2) (s : State) : (s.setCfg c).st = s.st := rfl
@[simp] theorem State.setCfg_hcnt (c : BitVec 2) (s : State) : (s.setCfg c).hcnt = s.hcnt := rfl
@[simp] theorem State.setCfg_acnt (c : BitVec 2) (s : State) : (s.setCfg c).acnt = s.acnt := rfl
@[simp] theorem State.setCfg_hbuf (c : BitVec 2) (s : State) : (s.setCfg c).hbuf = s.hbuf := rfl
@[simp] theorem State.setCfg_abuf (c : BitVec 2) (s : State) : (s.setCfg c).abuf = s.abuf := rfl
@[simp] theorem State.setCfg_alen (c : BitVec 2) (s : State) : (s.setCfg c).alen = s.alen := rfl
@[simp] theorem State.setCfg_fam (c : BitVec 2) (s : State) : (s.setCfg c).fam = s.fam := rfl

/-! ## The shared operations -/

theorem headerBeat_setCfg {w : BitVec 128} {k : State → State} (c : BitVec 2) (s : State)
    (hk : ∀ u : State, k (u.setCfg c) = (k u).setCfg c) :
    headerBeat w k (s.setCfg c) = andThen (headerBeat w k s) (execCfgw c) := by
  have hlatch : (s.setCfg c).latchHeader w = (s.latchHeader w).setCfg c := rfl
  cases hst : s.st <;> simp [headerBeat, hst, execCfgw_eq_setCfg, hlatch, hk]

theorem endRun_setCfg (eh ea : DecodeError) (io : Bool) (c : BitVec 2) (s : State) :
    endRun eh ea io (s.setCfg c) = andThen (endRun eh ea io s) (execCfgw c) := by
  cases hst : s.st <;> simp [endRun, hst] <;> rfl

theorem acceptHeader_setCfg (f : Nibble) (l : Half) (c : BitVec 2) (s : State) :
    (s.setCfg c).acceptHeader f l = (s.acceptHeader f l).setCfg c := by
  simp only [State.acceptHeader, decodeAddressBlock_nil]
  split_ifs <;> rfl

theorem concludeHeader_setCfg (answer : Except DecodeError Header) (c : BitVec 2) (s : State) :
    (s.setCfg c).concludeHeader answer = (s.concludeHeader answer).setCfg c := by
  cases answer with
  | error e => rfl
  | ok hd => exact acceptHeader_setCfg hd.family hd.addressLength c s

theorem finishAddress_setCfg (before : State) (c : BitVec 2) (s : State) :
    (before.setCfg c).finishAddress (s.setCfg c) = (before.finishAddress s).setCfg c := by
  by_cases hmore : before.acnt.toNat + 1 < before.alen.toNat
  · simp [State.finishAddress, hmore]
  · cases hd : decodeAddressBlockHw s.fam s.alen s.abuf <;> simp [State.finishAddress, hmore, hd] <;> rfl

/-! ## Every instruction -/

theorem execByte_setCfg (b : Byte) (c : BitVec 2) (s : State) :
    execByte b (s.setCfg c) = andThen (execByte b s) (execCfgw c) := by
  cases hst : s.st with
  | awaitHdr =>
    have hstore : (s.setCfg c).storeHeaderByte b = (s.storeHeaderByte b).setCfg c := rfl
    simp only [execByte, State.setCfg_st, hst, takeHeaderByte, runHeader_headerWord, hstore,
      State.setCfg_hcnt, State.setCfg_hbuf]
    split_ifs
    · rfl
    · exact headerBeat_setCfg c _ (concludeHeader_setCfg _ c)
  | awaitAddr =>
    have hstore : (s.setCfg c).storeAddressByte b = (s.storeAddressByte b).setCfg c := rfl
    simp [execByte, hst, takeAddressByte, hstore, finishAddress_setCfg, execCfgw_eq_setCfg]
  | done => simp [execByte, hst, execCfgw_eq_setCfg]
  | rejected => simp [execByte, hst, execCfgw_eq_setCfg]

/-- What an instruction leaves in `CFG` (R172, R173). -/
def cfgAfter (c : BitVec 2) : Instr → BitVec 2
  | .rst => 0#2
  | .cfgw v => v
  | _ => c

theorem exec_setCfg (i : Instr) (c : BitVec 2) (s : State) :
    exec i (s.setCfg c) = andThen (exec i s) (execCfgw (cfgAfter c i)) := by
  cases i with
  | proxyInet4 p l => exact headerBeat_setCfg c s (acceptHeader_setCfg _ l c)
  | proxyInet6 p l => exact headerBeat_setCfg c s (acceptHeader_setCfg _ l c)
  | rejFamily f p l => exact headerBeat_setCfg c s fun _ => rfl
  | rejCommand n f p l => exact headerBeat_setCfg c s fun _ => rfl
  | rejVersion v n f p l => exact headerBeat_setCfg c s fun _ => rfl
  | rejSignature g v n f p l => exact headerBeat_setCfg c s fun _ => rfl
  | timeout => exact endRun_setCfg _ _ _ c s
  | ioerr => exact endRun_setCfg _ _ _ c s
  | eof => exact endRun_setCfg _ _ _ c s
  | byte b => exact execByte_setCfg b c s
  | rst => rfl
  | clr => rfl
  | noEvent => rfl
  | cfgw v => rfl

/-! ## Steps and runs -/

/-- The event of a cycle does not depend on `CFG`. -/
theorem reduce_setCfg (c : BitVec 2) (s : State) (p : Pins) : reduce (s.setCfg c) p = reduce s p := rfl

/-- A cycle with another `CFG` answers the same state up to `CFG`. -/
theorem cycle_setCfg {s t : State} {p : Pins} (c : BitVec 2) (h : cycle s p = .next t) :
    ∃ c', cycle (s.setCfg c) p = .next (t.setCfg c') := by
  obtain ⟨hseen, u, hu, rfl⟩ := cycle_cases h
  have hexec := exec_setCfg (reduce s p) c s
  rw [hu, andThen_next, execCfgw_eq_setCfg, ← reduce_setCfg c s p] at hexec
  have hcycle := cycle_eq (s := s.setCfg c) hseen hexec
  exact ⟨_, hcycle⟩

theorem step_setCfg {s t : State} (c : BitVec 2) (h : step s = .next t) :
    ∃ c', step (s.setCfg c) = .next (t.setCfg c') :=
  cycle_setCfg c h

theorem run_setCfg {k : Nat} {s t : State} (c : BitVec 2) (h : Host.Core.run Sys2Proof.core k s = .next t) :
    ∃ c', Host.Core.run Sys2Proof.core k (s.setCfg c) = .next (t.setCfg c') := by
  induction k generalizing s c with
  | zero =>
    cases h
    exact ⟨c, rfl⟩
  | succ k ih =>
    obtain ⟨u, hu, hrest⟩ := run_succ_eq_next.mp h
    obtain ⟨c₁, hstep⟩ := step_setCfg c hu
    obtain ⟨c₂, hrun⟩ := ih c₁ hrest
    exact ⟨c₂, run_succ_eq_next.mpr ⟨_, hstep, hrun⟩⟩

/-- Only `disp` and `cfg_q` show `CFG` (R29, R36). -/
theorem outputs_setCfg (c : BitVec 2) (s : State) :
    (s.setCfg c).outputs = { s.outputs with disp := (s.setCfg c).disp.code, cfgQ := c } := rfl

/-- Settles O53, by induction on the number of steps. -/
theorem configNeverSteersTheRun : Obligations.ConfigNeverSteersTheRun := by
  intro s t c k h
  obtain ⟨c', hrun⟩ := run_setCfg c h
  exact ⟨c', hrun, _, _, outputs_setCfg c' t⟩

end Sys2Proof.Machine
end

section
/-! PROOFS. The stream position of R26, and the byte that `BYTE` reads there (R21, R22, R52). -/

namespace Sys2Proof.Machine

/-! ## The held bytes by offset -/

/-- At the offsets of the header, the held bytes are those of `hbuf` (R21). -/
theorem streamByte_of_lt (s : State) {off : Nat} (h : off < 16) :
    s.streamByte off = if off < s.hcnt.toNat then some s.hbuf[off] else none := by
  simp [State.streamByte, h]

/-- At the offsets after the header, the held bytes are those of `abuf` (R22). -/
theorem streamByte_add_hdrLen (s : State) (k : Nat) :
    s.streamByte (16 + k) = if k < s.acnt.toNat then s.abuf[k]? else none := by
  simp [State.streamByte]

/-- What an append at place `n` does to the read of any place: it shows at `n`, and nowhere else. -/
theorem read_after_append {α : Type} (off n : Nat) (b x : α) :
    (if off < n + 1 then some (if off = n then b else x) else none) =
      if off = n then some b else if off < n then some x else none := by
  rcases Nat.lt_trichotomy off n with hbelow | rfl | habove
  · simp [hbelow, hbelow.ne, Nat.lt_succ_of_lt hbelow]
  · simp
  · simp [habove.ne', habove.not_gt, Nat.not_lt_of_le habove]

/-! ## A byte taken in AWAIT_HDR -/

theorem pos_storeHeaderByte {s : State} (b : Byte) (hle : s.hcnt.toNat ≤ 15) :
    (s.storeHeaderByte b).pos.toNat = s.pos.toNat + 1 := by
  have hcount : (s.hcnt + 1#5).toNat = s.hcnt.toNat + 1 := by bv_omega
  rw [pos_toNat, pos_toNat, State.storeHeaderByte_hcnt, State.storeHeaderByte_acnt, hcount]
  omega

theorem streamByte_storeHeaderByte {s : State} (b : Byte) (hle : s.hcnt.toNat ≤ 15) (hacnt : s.acnt = 0#16)
    (off : Nat) :
    (s.storeHeaderByte b).streamByte off = if off = s.pos.toNat then some b else s.streamByte off := by
  have hpos : s.pos.toNat = s.hcnt.toNat := by simp [pos_toNat, hacnt]
  have hcount : (s.hcnt + 1#5).toNat = s.hcnt.toNat + 1 := by bv_omega
  rw [hpos]
  rcases Nat.lt_or_ge off 16 with hlt | hge
  · rw [streamByte_of_lt _ hlt, streamByte_of_lt _ hlt, State.storeHeaderByte_hcnt, hcount,
      storeHeaderByte_getElem b s off hlt, read_after_append]
  · obtain ⟨k, rfl⟩ := Nat.exists_eq_add_of_le hge
    rw [streamByte_add_hdrLen, streamByte_add_hdrLen, if_neg (show 16 + k ≠ s.hcnt.toNat by omega)]
    simp [hacnt]

/-! ## A byte taken in AWAIT_ADDR -/

theorem pos_storeAddressByte {s : State} (b : Byte) (hlt : s.acnt.toNat < s.alen.toNat) :
    (s.storeAddressByte b).pos.toNat = s.pos.toNat + 1 := by
  rw [pos_toNat, pos_toNat, storeAddressByte_acnt_toNat b hlt, State.storeAddressByte_hcnt]
  omega

/-- The byte is held if `abuf` has a place for it; beyond that it is counted and dropped (R22, R136). -/
theorem streamByte_storeAddressByte {s : State} (b : Byte) (hfull : s.hcnt = 16#5)
    (hlt : s.acnt.toNat < s.alen.toNat) (off : Nat) :
    (s.storeAddressByte b).streamByte off =
      if off = s.pos.toNat ∧ off < 52 then some b else s.streamByte off := by
  have hpos : s.pos.toNat = 16 + s.acnt.toNat := by simp [pos_toNat, hfull]
  rw [hpos]
  rcases Nat.lt_or_ge off 16 with hhdr | hge
  · rw [streamByte_of_lt _ hhdr, streamByte_of_lt _ hhdr,
      if_neg (show ¬(off = 16 + s.acnt.toNat ∧ off < 52) by omega)]
    rfl
  · obtain ⟨k, rfl⟩ := Nat.exists_eq_add_of_le hge
    rw [streamByte_add_hdrLen, streamByte_add_hdrLen, storeAddressByte_acnt_toNat b hlt]
    rcases Nat.lt_or_ge k 36 with hheld | hdropped
    · rw [Vector.getElem?_eq_getElem hheld, Vector.getElem?_eq_getElem hheld, storeAddressByte_getElem b s k hheld,
        read_after_append]
      exact if_congr (by omega) rfl rfl
    · rw [Vector.getElem?_eq_none hdropped, Vector.getElem?_eq_none hdropped,
        if_neg (show ¬(16 + k = 16 + s.acnt.toNat ∧ 16 + k < 52) by omega)]
      simp

/-! ## The events -/

/-- In a waiting state that R40 allows, `BYTE` advances the position by one, and holds the byte there if it has a place
for it. -/
theorem State.Inv.byte_waiting {s t : State} {b : Byte} (h : s.Inv) (hst : s.waiting)
    (ht : exec (.byte b) s = .next t) :
    t.pos.toNat = s.pos.toNat + 1 ∧
      ∀ off, t.streamByte off = if off = s.pos.toNat ∧ off < 52 then some b else s.streamByte off := by
  rcases hst with hst | hst
  · obtain ⟨hle, hacnt, -, -⟩ := h.awaitHdr hst
    have hsame := sameBytes_byte_awaitHdr hst hle ht
    have hpos : s.pos.toNat ≤ 15 := by simpa [pos_toNat, hacnt] using hle
    refine ⟨hsame.pos ▸ pos_storeHeaderByte b hle, fun off => ?_⟩
    rw [hsame.streamByte, streamByte_storeHeaderByte b hle hacnt]
    exact if_congr (by omega) rfl rfl
  · obtain ⟨hfull, -, -, hlt, -, -⟩ := h.awaitAddr hst
    have hsame := sameBytes_byte_awaitAddr hst ht
    refine ⟨hsame.pos ▸ pos_storeAddressByte b hlt, fun off => ?_⟩
    rw [hsame.streamByte, streamByte_storeAddressByte b hfull hlt]

/-- In DONE the header and the whole address block have been counted (R26, R40 I3). -/
theorem State.Inv.pos_done {s : State} (h : s.Inv) (hst : s.st = .done) : s.pos.toNat = 16 + s.alen.toNat := by
  obtain ⟨hfull, -, hacnt, -, -, -⟩ := h.done hst
  rw [pos_toNat, hfull, hacnt]
  rfl

/-- Settles O41. -/
theorem positionCountsConsumedBytes : Obligations.PositionCountsConsumedBytes := by
  refine ⟨pos_toNat, fun s t b h hst ht => (h.byte_waiting hst ht).1, ?_, ?_,
    fun s h => ⟨h.posSum.2, h.pos_done⟩⟩
  · rintro s t v (hnone | heof | hioerr | htimeout | hcfgw)
    · cases hnone
      rfl
    · exact (sameBytes_endRun heof).pos
    · exact (sameBytes_endRun hioerr).pos
    · exact (sameBytes_endRun htimeout).pos
    · cases hcfgw
      rfl
  · rintro s t (hclr | hrst)
    · cases hclr
      rfl
    · cases hrst
      rfl

/-- Settles O42. -/
theorem byteIsReadAtPosition : Obligations.ByteIsReadAtPosition := by
  intro s t b h hst ht
  obtain ⟨-, hbytes⟩ := h.byte_waiting hst ht
  exact ⟨fun hheld => by rw [hbytes, if_pos ⟨rfl, hheld⟩],
    fun off hne => by rw [hbytes, if_neg fun hat => hne hat.1]⟩

end Sys2Proof.Machine
end

section
/-! PROOFS. The reset values of R41, and what the output ports show: the flags (R30), the disposition (R31), the header
view (R32) and the endpoint view (R33). -/

namespace Sys2Proof.Machine

/-! ## Reset -/

/-- Settles O23. -/
theorem rstGivesResetState : Obligations.RstGivesResetState := by
  intro s
  refine ⟨s.toReset, rfl, rfl, rfl, rfl, fun i => ?_, fun k => ?_, rfl, rfl, rfl, rfl, rfl⟩
  · simp [State.toReset_hbuf]
  · simp [State.toReset_abuf]

/-- Settles O24: the reset state is one state, and its ports are evaluated. -/
theorem resetOutputs : Obligations.ResetOutputs := by
  unfold Obligations.ResetOutputs
  decide

/-! ## The flags and the disposition -/

theorem inReady_iff (s : State) : s.inReady = true ↔ s.waiting := by
  cases hst : s.st <;> simp [State.inReady, State.waiting, hst]

theorem isDone_iff (s : State) : s.isDone = true ↔ s.st = .done := beq_iff_eq

theorem isRejected_iff (s : State) : s.isRejected = true ↔ s.st = .rejected := beq_iff_eq

/-- Settles O44. -/
theorem flagsFollowState : Obligations.FlagsFollowState := by
  refine fun s => ⟨inReady_iff s, isDone_iff s, isRejected_iff s, rfl, ?_, by decide⟩
  cases hst : s.st <;> simp [State.outputs, SeqState.code, hst]

theorem disp_of_waiting {s : State} (hst : s.waiting) : s.disp = .pending := by
  rcases hst with hst | hst <;> simp [State.disp, hst]

theorem disp_of_done {s : State} (hst : s.st = .done) : s.disp = .accept := by
  simp [State.disp, hst]

/-- In REJECTED the disposition is PASS for the two kinds that `CFG` lets pass, and DROP for all others (R31). -/
theorem disp_of_rejected {s : State} (hst : s.st = .rejected) :
    s.disp =
      if (s.err = 3#4 ∧ s.cfg.getLsbD 0 = true) ∨ (s.err = 5#4 ∧ s.cfg.getLsbD 1 = true) then .pass
      else .drop := by
  rw [ite_or]
  simp only [State.disp, hst]
  rfl

/-- Settles O43. -/
theorem dispositionAdvice : Obligations.DispositionAdvice := by
  refine fun s => ⟨fun hst => ?_, fun hst => ?_, fun hst herr hpol => ?_, fun hst herr hpol => ?_,
    fun hst hsig hcmd => ?_⟩
  · rw [disp_of_waiting hst]
    rfl
  · rw [disp_of_done hst]
    rfl
  · rw [disp_of_rejected hst, if_pos (.inl ⟨herr, hpol⟩)]
    rfl
  · rw [disp_of_rejected hst, if_pos (.inr ⟨herr, hpol⟩)]
    rfl
  · rw [disp_of_rejected hst, if_neg (not_or.mpr ⟨hsig, hcmd⟩)]
    rfl

/-! ## The header view -/

theorem headerView_of_done {s : State} (hst : s.st = .done) :
    s.headerView =
      ⟨hiNibble s.hbuf[12], loNibble s.hbuf[12], hiNibble s.hbuf[13], loNibble s.hbuf[13], s.alen⟩ := by
  simp [State.headerView, hst]

theorem headerView_of_not_done {s : State} (hst : s.st ≠ .done) :
    s.headerView = ⟨0#4, 0#4, 0#4, 0#4, 0#16⟩ := by
  simp [State.headerView, hst]

/-- The record of an accepted header holds the buffer's own fields (R110). -/
theorem eq_of_decodeHeader_eq_ok {h : HeaderBuf} {hd : Header} (hok : decodeHeader h = .ok hd) :
    hd = ⟨hiNibble h[12], loNibble h[12], hiNibble h[13], loNibble h[13], be16 h[14] h[15]⟩ := by
  simp only [decodeHeader] at hok
  split_ifs at hok
  cases hok
  rfl

/-- In DONE the ports show the header that FHD accepted (R32, R40 I3). -/
theorem State.Inv.decodeHeader_done {s : State} (h : s.Inv) (hst : s.st = .done) :
    decodeHeader s.hbuf = .ok s.headerView := by
  obtain ⟨-, ⟨hd, hok, -⟩, -⟩ := h.done hst
  rw [hok, eq_of_decodeHeader_eq_ok hok, headerView_of_done hst]
  rfl

/-- Settles O45. -/
theorem headerViewShown : Obligations.HeaderViewShown :=
  fun _ => ⟨headerView_of_not_done, headerView_of_done, State.Inv.decodeHeader_done⟩

/-! ## The endpoint view -/

/-- A byte put after others at the low end is a shift and an `or`, in a port of any width. -/
theorem setWidth_append_byte {n m : Nat} (x : BitVec n) (b : Byte) :
    (x ++ b).setWidth m = x.setWidth m <<< 8 ||| b.setWidth m := by
  refine BitVec.eq_of_getLsbD_eq fun i hi => ?_
  simp only [BitVec.getLsbD_setWidth, BitVec.getLsbD_append, BitVec.getLsbD_or, BitVec.getLsbD_shiftLeft]
  by_cases hlow : i < 8
  · simp [hlow, hi]
  · have hhigh : b.getLsbD i = false := BitVec.getLsbD_of_ge b i (by omega)
    have hsub : i - 8 < m := by omega
    simp [hlow, hi, hhigh, hsub]

/-- The octets at consecutive places of the address buffer, one by one. -/
theorem take_drop_abuf (a : AddrBuf) {i : Nat} (n : Nat) (hi : i < 36) :
    (a.toList.drop i).take (n + 1) = a[i] :: (a.toList.drop (i + 1)).take n := by
  rw [List.drop_eq_getElem_cons (by simpa using hi), List.take_succ_cons, Vector.getElem_toList]

theorem getD_abuf (a : AddrBuf) {i : Nat} (hi : i < 36) : a.toList.getD i 0#8 = a[i] := by
  rw [List.getD_eq_getElem _ _ (by simpa using hi), Vector.getElem_toList]

/-- An IPv4 address on its port: four octets, zero-extended (R33). -/
theorem ipPort_inet4 (a : AddrBuf) {i : Nat} (hi : i + 3 < 36) :
    ipPort ((a.toList.drop i).take 4) = (a[i] ++ a[i + 1] ++ a[i + 2] ++ a[i + 3]).setWidth 128 := by
  simp (disch := omega) [take_drop_abuf, setWidth_append_byte, ipPort]

theorem ipPort_inet6 (a : AddrBuf) {i : Nat} (hi : i + 15 < 36) :
    ipPort ((a.toList.drop i).take 16) =
      a[i] ++ a[i + 1] ++ a[i + 2] ++ a[i + 3] ++ a[i + 4] ++ a[i + 5] ++ a[i + 6] ++ a[i + 7] ++ a[i + 8] ++
        a[i + 9] ++ a[i + 10] ++ a[i + 11] ++ a[i + 12] ++ a[i + 13] ++ a[i + 14] ++ a[i + 15] := by
  refine Eq.trans ?_ (BitVec.setWidth_eq _)
  simp (disch := omega) [take_drop_abuf, setWidth_append_byte, ipPort, -BitVec.setWidth_eq]

theorem endpointView_of_not_done {s : State} (hst : s.st ≠ .done) : s.endpointView = .zero := by
  simp [State.endpointView, hst]

theorem endpointView_of_inet4 {s : State} (hst : s.st = .done) (hfam : s.fam = 1#4) :
    s.endpointView = (inet4Endpoints s.abuf.toList).ports := by
  simp [State.endpointView, hst, hfam]

theorem endpointView_of_inet6 {s : State} (hst : s.st = .done) (hfam : s.fam = 2#4) :
    s.endpointView = (inet6Endpoints s.abuf.toList).ports := by
  simp [State.endpointView, hst, hfam, Config.famInet4]

/-- Settles O46. -/
theorem endpointViewShown : Obligations.EndpointViewShown := by
  refine fun s => ⟨endpointView_of_not_done, fun hst hfam => ?_, fun hst hfam => ?_⟩
  · rw [endpointView_of_inet4 hst hfam]
    refine ⟨ipPort_inet4 s.abuf (i := 0) (by decide), ipPort_inet4 s.abuf (i := 4) (by decide), ?_, ?_⟩ <;>
      simp (disch := decide) only [inet4Endpoints, Endpoints.ports, be16, getD_abuf]
  · rw [endpointView_of_inet6 hst hfam]
    refine ⟨ipPort_inet6 s.abuf (i := 0) (by decide), ipPort_inet6 s.abuf (i := 16) (by decide), ?_, ?_⟩ <;>
      simp (disch := decide) only [inet6Endpoints, Endpoints.ports, be16, getD_abuf]

end Sys2Proof.Machine
end

section
/-! PROOFS. A header offered one byte a cycle (R53, R160): fifteen steps fill `hbuf` place by place, and the sixteenth
is the header-completing beat, which is what a header form runs (R76, log entry 4). -/

namespace Sys2Proof.Machine

/-! ## Steps on offered bytes -/

/-- A byte offered alone to a waiting block is the event `BYTE` (R77, R158). -/
theorem reduce_scriptByte (b : Byte) {s : State} (hst : s.waiting) : reduce s (.scriptByte b) = .byte b := by
  have hready : s.inReady = true := (inReady_iff s).mpr hst
  have hvector : eventVector s (.scriptByte b) = 0b000010#6 := by
    simp [eventVector, beat, Pins.scriptByte, hready]
  rw [reduce, hvector]
  rfl

/-- A step of a waiting block on a byte offered alone is `BYTE` on the samples after it (R11, R151). -/
theorem step_scriptByte {s : State} {b : Byte} {rest : List Pins} (hseen : s.resetSeen = true) (hst : s.waiting)
    (hin : s.inputs = .scriptByte b :: rest) : step s = exec (.byte b) { s with inputs := rest } := by
  obtain ⟨t, ht⟩ := exec_next (.byte b) { s with inputs := rest }
  have hreduce : reduce { s with inputs := rest } (.scriptByte b) = .byte b := reduce_scriptByte b hst
  rw [step_of_inputs_cons hin, ht]
  exact cycle_of_noConfigWrite hseen (by rw [hreduce, ht]) (.inr rfl)

/-- A run goes on from the state that its first step answers. -/
theorem run_succ_of_step {s t : State} (k : Nat) (h : step s = .next t) :
    Host.Core.run Sys2Proof.core (k + 1) s = Host.Core.run Sys2Proof.core k t := by
  have hcore : Sys2Proof.core.step s = .next t := h
  simp [Host.Core.run, hcore]

/-! ## The header taken so far -/

/-- The state with the first `n` bytes of a header taken: they stand in `hbuf`, the places after them are zero, and
`hcnt` counts them (R21, R24, R40). -/
def State.withHeaderTaken (h : HeaderBuf) (n : Nat) (s : State) : State :=
  { s with hbuf := Vector.ofFn fun i => if i.val < n then h[i] else 0#8, hcnt := BitVec.ofNat 5 n }

theorem withHeaderTaken_hcnt_toNat (h : HeaderBuf) {n : Nat} (hn : n ≤ 16) (s : State) :
    (s.withHeaderTaken h n).hcnt.toNat = n :=
  Nat.mod_eq_of_lt (by omega)

theorem withHeaderTaken_getElem (h : HeaderBuf) (n : Nat) (s : State) {i : Nat} (hi : i < 16) :
    (s.withHeaderTaken h n).hbuf[i] = if i < n then h[i] else 0#8 := by
  simp [State.withHeaderTaken]

theorem withHeaderTaken_eq_of_hbuf {h b : HeaderBuf} {n : Nat} {s : State}
    (hbuf : (s.withHeaderTaken h n).hbuf = b) :
    s.withHeaderTaken h n = { s with hbuf := b, hcnt := BitVec.ofNat 5 n } := by
  rw [← hbuf]
  rfl

/-- A run starts in AWAIT_HDR (R12). -/
theorem st_of_armed {s : State} (harmed : s.armed) : s.st = .awaitHdr := (congrArg State.st harmed).symm

/-- An armed state is one with nothing of the header taken. -/
theorem withHeaderTaken_zero (h : HeaderBuf) {s : State} (harmed : s.armed) : s.withHeaderTaken h 0 = s := by
  have hcnt : s.hcnt = 0#5 := (congrArg State.hcnt harmed).symm
  have hzero : s.hbuf = Vector.replicate 16 0#8 := (congrArg State.hbuf harmed).symm
  have hbuf : (s.withHeaderTaken h 0).hbuf = s.hbuf := by
    ext1 i hi
    simp [withHeaderTaken_getElem, hzero]
  rw [withHeaderTaken_eq_of_hbuf hbuf, ← hcnt]

/-- Storing the next byte of the header takes one byte more of it (R160). -/
theorem storeHeaderByte_withHeaderTaken (h : HeaderBuf) {n : Nat} (hn : n < 16) (s : State) :
    (s.withHeaderTaken h n).storeHeaderByte h[n] = s.withHeaderTaken h (n + 1) := by
  have hbuf : ((s.withHeaderTaken h n).storeHeaderByte h[n]).hbuf = (s.withHeaderTaken h (n + 1)).hbuf := by
    ext1 i hi
    rw [storeHeaderByte_getElem _ _ i hi, withHeaderTaken_hcnt_toNat h (by omega), withHeaderTaken_getElem,
      withHeaderTaken_getElem]
    by_cases hlast : i = n
    · simp [hlast]
    · have hbefore : i < n + 1 ↔ i < n := by omega
      simp only [if_neg hlast, hbefore]
  rw [withHeaderTaken_eq_of_hbuf hbuf.symm, BitVec.ofNat_add]
  rfl

/-- `BYTE` on a byte of the header before the last takes that byte, and nothing more (R160). -/
theorem exec_byte_withHeaderTaken (h : HeaderBuf) {n : Nat} (hn : n < 15) {s : State} (hst : s.st = .awaitHdr) :
    exec (.byte h[n]) (s.withHeaderTaken h n) = .next (s.withHeaderTaken h (n + 1)) := by
  have hcount := withHeaderTaken_hcnt_toNat h (by omega : n ≤ 16) s
  rw [exec_byte_of_hcnt_lt (s := s.withHeaderTaken h n) _ hst (by omega), storeHeaderByte_withHeaderTaken h (by omega)]

/-- All sixteen bytes taken are the header latched (R111). -/
theorem withHeaderTaken_full (w : BitVec 128) (s : State) :
    s.withHeaderTaken (headerBytes w) 16 = s.latchHeader w := by
  have hbuf : (s.withHeaderTaken (headerBytes w) 16).hbuf = headerBytes w := by
    ext1 i hi
    rw [withHeaderTaken_getElem, if_pos hi]
  exact withHeaderTaken_eq_of_hbuf hbuf

/-- With `n` bytes of a header sent, the next sample offers byte `n`. -/
theorem offers_drop (h : HeaderBuf) {n : Nat} (hn : n < 16) (rest : List Pins) :
    scriptSend (h.toList.drop n) ++ rest = .scriptByte h[n] :: (scriptSend (h.toList.drop (n + 1)) ++ rest) := by
  rw [List.drop_eq_getElem_cons (by simpa using hn), Vector.getElem_toList]
  rfl

/-- A step with the first `n` bytes of a header taken and the others on offer is `BYTE` on byte `n`. -/
theorem step_withHeaderTaken (h : HeaderBuf) {n : Nat} (hn : n < 16) {s : State} (hst : s.st = .awaitHdr)
    (hseen : s.resetSeen = true) (rest : List Pins) :
    step (State.withHeaderTaken h n { s with inputs := scriptSend (h.toList.drop n) ++ rest }) =
      exec (.byte h[n])
        (State.withHeaderTaken h n { s with inputs := scriptSend (h.toList.drop (n + 1)) ++ rest }) :=
  step_scriptByte hseen (.inl hst) (offers_drop h hn rest)

/-- Up to fifteen steps on the bytes of a header, offered one a cycle, take that many of them. -/
theorem run_header_bytes (h : HeaderBuf) (rest : List Pins) {s : State} (harmed : s.armed)
    (hseen : s.resetSeen = true) (hin : s.inputs = scriptSend h.toList ++ rest) {n : Nat} (hn : n ≤ 15) (k : Nat) :
    Host.Core.run Sys2Proof.core (n + k) s = Host.Core.run Sys2Proof.core k
      (State.withHeaderTaken h n { s with inputs := scriptSend (h.toList.drop n) ++ rest }) := by
  induction n generalizing k with
  | zero => rw [List.drop_zero, ← hin, withHeaderTaken_zero h harmed, Nat.zero_add]
  | succ n ih =>
    have hst : s.st = .awaitHdr := st_of_armed harmed
    have hstep := (step_withHeaderTaken h (by omega : n < 16) hst hseen rest).trans
      (exec_byte_withHeaderTaken h (by omega) hst)
    rw [Nat.add_right_comm, Nat.add_assoc, ih (by omega), run_succ_of_step k hstep]

/-! ## The header-completing beat -/

/-- The form that a header word decodes to latches that word, whichever row of R76 it is, and goes on with FHD's
answer (R160). -/
theorem exec_decodeHeaderWord (w : BitVec 128) {s : State} (hst : s.st = .awaitHdr) :
    exec (decodeHeaderWord w) s =
      .next ((s.latchHeader w).concludeHeader (decodeHeader (headerBytes w))) := by
  have hform := runHeader_headerWord (headerBytes w) s
  rwa [headerWord_headerBytes, runHeader_eq_exec, headerBeat_awaitHdr hst] at hform

/-- The sixteenth byte of a header runs the form that the header decodes to (R76, R160). -/
theorem exec_byte_last_eq_exec_form (w : BitVec 128) {s : State} (hst : s.st = .awaitHdr) :
    exec (.byte (headerBytes w)[15]) (s.withHeaderTaken (headerBytes w) 15) = exec (decodeHeaderWord w) s := by
  rw [exec_byte_of_hcnt_eq (s := s.withHeaderTaken _ 15) _ hst rfl, storeHeaderByte_withHeaderTaken _ (by decide),
    withHeaderTaken_full, exec_decodeHeaderWord w hst, State.latchHeader_hbuf]

/-- Settles O56: fifteen steps take all bytes but one, and the sixteenth is the header-completing beat. -/
theorem sixteenBytesRunTheHeaderForm : Obligations.SixteenBytesRunTheHeaderForm := by
  intro s w rest harmed hseen hin
  have hst : s.st = .awaitHdr := st_of_armed harmed
  obtain ⟨t, ht⟩ := exec_next (decodeHeaderWord w) { s with inputs := rest }
  have hlast := step_withHeaderTaken (headerBytes w) (by decide : 15 < 16) hst hseen rest
  have hform := exec_byte_last_eq_exec_form w (s := { s with inputs := rest }) hst
  rw [run_header_bytes (headerBytes w) rest harmed hseen hin (n := 15) le_rfl 1,
    run_succ_of_step 0 (hlast.trans (hform.trans ht)), ht]
  rfl

end Sys2Proof.Machine
end

section
/-! PROOFS. Encoding and decoding (R71, R76 to R78): decode gives back what was encoded, and the decode map of the
header words loses no bit. -/

namespace Sys2Proof

/-! ## Well-formed terms -/

@[simp] theorem wellFormed_rejFamily (f p : Nibble) (l : Half) :
    (Instr.rejFamily f p l).wellFormed = true ↔ f ≠ 1#4 ∧ f ≠ 2#4 := by
  simp [Instr.wellFormed, Instr.illFormed]

@[simp] theorem wellFormed_rejCommand (c f p : Nibble) (l : Half) :
    (Instr.rejCommand c f p l).wellFormed = true ↔ c ≠ 1#4 := by
  simp [Instr.wellFormed, Instr.illFormed]

@[simp] theorem wellFormed_rejVersion (v c f p : Nibble) (l : Half) :
    (Instr.rejVersion v c f p l).wellFormed = true ↔ v ≠ 2#4 := by
  simp [Instr.wellFormed, Instr.illFormed]

@[simp] theorem wellFormed_rejSignature (g : BitVec 96) (v c f p : Nibble) (l : Half) :
    (Instr.rejSignature g v c f p l).wellFormed = true ↔ g ≠ Config.signatureWord := by
  simp [Instr.wellFormed, Instr.illFormed]

/-! ## The header words -/

/-- The decode map of R76 on the fields of a word: the first check that fails names the form, which carries the fields
that its row leaves open. -/
theorem decodeHeaderWord_headerFields (g : BitVec 96) (v c f p : Nibble) (l : Half) :
    decodeHeaderWord (headerFields g v c f p l) =
      if g ≠ Config.signatureWord then .rejSignature g v c f p l
      else if v ≠ 2#4 then .rejVersion v c f p l
      else if c ≠ 1#4 then .rejCommand c f p l
      else if f = 1#4 then .proxyInet4 p l
      else if f = 2#4 then .proxyInet6 p l
      else .rejFamily f p l := by
  simp only [decodeHeaderWord, classifyHeader_eq, signatureField_headerFields, versionField_headerFields,
    commandField_headerFields, familyField_headerFields, protocolField_headerFields,
    addressLengthField_headerFields]
  split_ifs <;> rfl

/-- Settles O2. A header form's word fails the check that the form is named after and none before it; an event and
`CFGW` are read back from their rows. -/
theorem decodeEncodeAgree : Obligations.DecodeEncodeAgree := by
  intro i hwf
  cases i with
  | proxyInet4 p l => simp [encode, decode, decodeHeaderWord_headerFields]
  | proxyInet6 p l => simp [encode, decode, decodeHeaderWord_headerFields, Config.famInet6]
  | rejFamily f p l =>
    obtain ⟨hnot4, hnot6⟩ := (wellFormed_rejFamily f p l).mp hwf
    simp [encode, decode, decodeHeaderWord_headerFields, hnot4, hnot6]
  | rejCommand c f p l =>
    have hcommand := (wellFormed_rejCommand c f p l).mp hwf
    simp [encode, decode, decodeHeaderWord_headerFields, hcommand]
  | rejVersion v c f p l =>
    have hversion := (wellFormed_rejVersion v c f p l).mp hwf
    simp [encode, decode, decodeHeaderWord_headerFields, hversion]
  | rejSignature g v c f p l =>
    have hsignature := (wellFormed_rejSignature g v c f p l).mp hwf
    simp [encode, decode, decodeHeaderWord_headerFields, hsignature]
  | rst => rfl
  | clr => rfl
  | timeout => rfl
  | ioerr => rfl
  | byte b => rfl
  | eof => rfl
  | noEvent => rfl
  | cfgw v => rfl

/-- A word's decoded form is well formed, and its encoding has the word's own fields. -/
theorem encode_decodeHeaderWord_headerFields (g : BitVec 96) (v c f p : Nibble) (l : Half) :
    (decodeHeaderWord (headerFields g v c f p l)).wellFormed = true ∧
      encode (decodeHeaderWord (headerFields g v c f p l)) = .h16 (headerFields g v c f p l) := by
  rw [decodeHeaderWord_headerFields]
  split_ifs with hsignature hversion hcommand hinet4 hinet6
  · exact ⟨(wellFormed_rejSignature ..).mpr hsignature, rfl⟩
  all_goals rw [not_not] at hsignature; subst hsignature
  · exact ⟨(wellFormed_rejVersion ..).mpr hversion, rfl⟩
  all_goals rw [not_not] at hversion; subst hversion
  · exact ⟨(wellFormed_rejCommand ..).mpr hcommand, rfl⟩
  all_goals rw [not_not] at hcommand; subst hcommand
  · subst hinet4
    exact ⟨rfl, rfl⟩
  · subst hinet6
    exact ⟨rfl, rfl⟩
  · exact ⟨(wellFormed_rejFamily ..).mpr ⟨hinet4, hinet6⟩, rfl⟩

/-- Settles O3: every word is what its six fields build. -/
theorem headerDecodeLosesNoBit : Obligations.HeaderDecodeLosesNoBit := by
  intro w
  rw [← headerFields_eta w]
  exact encode_decodeHeaderWord_headerFields _ _ _ _ _ _

/-- Settles O1: eight fixed words, each evaluated by the decoder. -/
theorem handWrittenWordsDecode : Obligations.HandWrittenWordsDecode := by
  refine ⟨?_, ?_, ?_, ?_, ?_, ?_, ?_, ?_⟩ <;> rfl

end Sys2Proof
end

section
/-! PROOFS. The second readings of the decode maps: FHD's step list (R110), the chain of tests of R158, and the
configuration write of R78. -/

namespace Sys2Proof.Machine

/-! ## The header -/

/-- Settles O4: the checks in R110's order; at each the row that names it is the first that applies. -/
theorem headerMapAgreesWithDecoderSteps : Obligations.HeaderMapAgreesWithDecoderSteps := by
  intro h
  have hvalid := validateSignature_iff h
  simp only [decodeHeader, classifyHeader_eq, versionField_headerWord, commandField_headerWord,
    familyField_headerWord]
  by_cases hsig : signatureField (headerWord h) = Config.signatureWord
  case neg =>
    have hinvalid : validateSignature (signatureBytes h) = false := by simpa [hsig] using hvalid
    simp [hsig, hinvalid, headerOutcome]
  rw [hvalid.mpr hsig]
  by_cases hversion : hiNibble h[12] = 2#4
  case neg => simp [hsig, hversion, headerOutcome]
  by_cases hcommand : loNibble h[12] = 1#4
  case neg => simp [hsig, hversion, hcommand, headerOutcome]
  by_cases hinet4 : hiNibble h[13] = 1#4
  case pos => simp [hsig, hversion, hcommand, hinet4, headerOutcome]
  by_cases hinet6 : hiNibble h[13] = 2#4
  case pos => simp [hsig, hversion, hcommand, hinet6, headerOutcome]
  simp [hsig, hversion, hcommand, hinet4, hinet6, headerOutcome]

/-- The sixteenth byte's write leaves the header latched that the buffer then holds (R111, R160). -/
theorem storeHeaderByte_eq_latchHeader (b : Byte) {s : State} (hlast : s.hcnt = 15#5) :
    s.storeHeaderByte b = s.latchHeader (headerWord (s.hbuf.set 15 b)) := by
  have hbuf : s.hbuf.setIfInBounds 15 b = s.hbuf.set 15 b := by
    ext1 i hi
    simp [Vector.getElem_setIfInBounds, Vector.getElem_set]
  simp [State.storeHeaderByte, State.latchHeader, hlast, hbuf]

/-- Settles O30: both sides are FHD's answer on the buffer with the byte, concluded on that buffer. -/
theorem headerBeatRunsDecodedForm : Obligations.HeaderBeatRunsDecodedForm := by
  intro s b hst hlast
  rw [exec_byte_of_hcnt_eq b hst (by rw [hlast]; rfl), exec_decodeHeaderWord _ hst,
    storeHeaderByte_eq_latchHeader b hlast, State.latchHeader_hbuf]

/-! ## The pins -/

/-- The pin vector `p[5:0]` of R77 from its six pins. -/
def pinVector (rst clr timeout inErr beat inEof : Bool) : BitVec 6 :=
  BitVec.ofBool rst ++ BitVec.ofBool clr ++ BitVec.ofBool timeout ++ BitVec.ofBool inErr ++
    BitVec.ofBool beat ++ BitVec.ofBool inEof

theorem eventVector_eq_pinVector (s : State) (p : Pins) :
    eventVector s p = pinVector p.rst p.clr p.timeout p.inErr (beat s p) p.inEof := rfl

/-- What the row of an event tests: its own pin is high and every pin before it is low (R77). -/
theorem rowRst_hits : ∀ r c t e b f, rowRst.hits (pinVector r c t e b f) = r := by decide
@[inherit_doc rowRst_hits] theorem rowClr_hits :
    ∀ r c t e b f, rowClr.hits (pinVector r c t e b f) = (!r && c) := by decide
@[inherit_doc rowRst_hits] theorem rowTimeout_hits :
    ∀ r c t e b f, rowTimeout.hits (pinVector r c t e b f) = (!r && !c && t) := by decide
@[inherit_doc rowRst_hits] theorem rowIoerr_hits :
    ∀ r c t e b f, rowIoerr.hits (pinVector r c t e b f) = (!r && !c && !t && e) := by decide
@[inherit_doc rowRst_hits] theorem rowByte_hits :
    ∀ r c t e b f, rowByte.hits (pinVector r c t e b f) = (!r && !c && !t && !e && b) := by decide
@[inherit_doc rowRst_hits] theorem rowEof_hits :
    ∀ r c t e b f, rowEof.hits (pinVector r c t e b f) = (!r && !c && !t && !e && !b && f) := by decide

/-- Settles O5: where the tests before it have failed, a row tests its own pin alone. -/
theorem reduceFollowsPriority : Obligations.ReduceFollowsPriority := by
  intro s p
  rw [reduce, reduceByPriority, eventVector_eq_pinVector, decodeEvent]
  simp only [rowRst_hits, rowClr_hits, rowTimeout_hits, rowIoerr_hits, rowByte_hits, rowEof_hits, beat]
  cases p.rst with
  | true => rfl
  | false =>
    cases p.clr with
    | true => rfl
    | false =>
      cases p.timeout with
      | true => rfl
      | false =>
        cases p.inErr with
        | true => rfl
        | false => cases p.inValid && s.inReady <;> rfl

/-- The configuration write of a sample (R78). -/
theorem decodeConfig_configVector (p : Pins) (v : BitVec 2) :
    decodeConfig (configVector p) v =
      if p.rst then .error .configWriteUnderReset
      else if p.cfgWe then .ok (.cfgw v)
      else .error .noConfigWrite := by
  rw [configVector]
  cases p.rst <;> cases p.cfgWe <;> rfl

/-- Settles O6. -/
theorem configWriteDecoded : Obligations.ConfigWriteDecoded := by
  intro p v
  rw [decodeConfig_configVector]
  refine ⟨?_, ?_, ?_⟩
  · rintro ⟨hrst, hwe⟩
    simp [hrst, hwe]
  · intro hrst
    simp [hrst]
  · rintro ⟨hrst, hwe⟩
    simp [hrst, hwe]

end Sys2Proof.Machine
end

section
/-! PROOFS. The decoder of a complete block: it reads a block's first bytes only (R22, R135), and reads back the fields
that the wire form of any endpoints holds (R138). -/

namespace Sys2Proof.Machine

/-! ## The decoder reads the first 12 or 36 bytes -/

theorem inet4Endpoints_take (a : List Byte) {n : Nat} (hn : 12 ≤ n) :
    inet4Endpoints (a.take n) = inet4Endpoints a := by
  simp (disch := omega) [inet4Endpoints, List.take_take, List.drop_take, List.getElem?_take_of_lt]

theorem inet6Endpoints_take (a : List Byte) {n : Nat} (hn : 36 ≤ n) :
    inet6Endpoints (a.take n) = inet6Endpoints a := by
  simp (disch := omega) [inet6Endpoints, List.take_take, List.drop_take, List.getElem?_take_of_lt]

/-- The buffer holds the bytes of a block, as far as it has places for them (R22). -/
def AddrBuf.Holds (buf : AddrBuf) (a : List Byte) : Prop :=
  ∀ k (hk : k < 36) (hka : k < a.length), buf[k] = a[k]

theorem AddrBuf.Holds.take_eq {buf : AddrBuf} {a : List Byte} (h : AddrBuf.Holds buf a) {n : Nat}
    (hn : n ≤ 36) (hna : n ≤ a.length) : buf.toList.take n = a.take n := by
  refine List.ext_getElem (by simp [hn, hna]) fun k hk _ => ?_
  have hlt : k < n := by simp at hk; omega
  simpa using h k (by omega) (by omega)

/-- ABD in the hardware, from `fam`, `alen` and a buffer that holds the block, is ABD on the block (R135). -/
theorem decodeAddressBlockHw_of_holds {f : Nibble} {l : Half} {buf : AddrBuf} {a : List Byte}
    (hlen : l.toNat = a.length) (hheld : AddrBuf.Holds buf a) :
    decodeAddressBlockHw f l buf = decodeAddressBlock f a := by
  simp only [decodeAddressBlockHw, decodeAddressBlock, hlen]
  split_ifs with hinet4 hshort4 hinet6 hshort6
  · rfl
  · have hsame := hheld.take_eq (n := 12) (by decide) (by simpa using hshort4)
    rw [← inet4Endpoints_take _ le_rfl, hsame, inet4Endpoints_take _ le_rfl]
  · rfl
  · have hsame := hheld.take_eq (n := 36) (by decide) (by simpa using hshort6)
    rw [← inet6Endpoints_take _ le_rfl, hsame, inet6Endpoints_take _ le_rfl]
  · rfl

/-! ## The wire form of endpoints -/

/-- A half word is put back together from its two bytes on the wire (R15, R85). -/
theorem be16_wireHalf (n : Half) : be16 (n.extractLsb' 8 8) (n.extractLsb' 0 8) = n :=
  BitVec.extractLsb'_append_extractLsb'

theorem inet4Endpoints_wireEndpoints {e : Endpoints} (hsrc : e.sourceIp.length = 4)
    (hdst : e.destinationIp.length = 4) (rest : List Byte) :
    inet4Endpoints (wireEndpoints e ++ rest) = e := by
  simp [inet4Endpoints, wireEndpoints, wireHalf, List.getElem?_append, hsrc, hdst, be16_wireHalf]

theorem inet6Endpoints_wireEndpoints {e : Endpoints} (hsrc : e.sourceIp.length = 16)
    (hdst : e.destinationIp.length = 16) (rest : List Byte) :
    inet6Endpoints (wireEndpoints e ++ rest) = e := by
  simp [inet6Endpoints, wireEndpoints, wireHalf, List.getElem?_append, hsrc, hdst, be16_wireHalf]

theorem length_wireEndpoints (e : Endpoints) :
    (wireEndpoints e).length = e.sourceIp.length + e.destinationIp.length + 4 := by
  simp [wireEndpoints, wireHalf]
  omega

theorem decodeAddressBlock_wireEndpoints4 {e : Endpoints} (hsrc : e.sourceIp.length = 4)
    (hdst : e.destinationIp.length = 4) (rest : List Byte) :
    decodeAddressBlock 1#4 (wireEndpoints e ++ rest) = .ok e := by
  have hlong : ¬(wireEndpoints e ++ rest).length < 12 := by
    rw [List.length_append, length_wireEndpoints]
    omega
  rw [decodeAddressBlock, if_pos rfl, if_neg hlong, inet4Endpoints_wireEndpoints hsrc hdst]

theorem decodeAddressBlock_wireEndpoints6 {e : Endpoints} (hsrc : e.sourceIp.length = 16)
    (hdst : e.destinationIp.length = 16) (rest : List Byte) :
    decodeAddressBlock 2#4 (wireEndpoints e ++ rest) = .ok e := by
  have hlong : ¬(wireEndpoints e ++ rest).length < 36 := by
    rw [List.length_append, length_wireEndpoints]
    omega
  rw [decodeAddressBlock, if_neg (by decide), if_pos rfl, if_neg hlong, inet6Endpoints_wireEndpoints hsrc hdst]

end Sys2Proof.Machine
end

section
/-! PROOFS. An address block offered one byte a cycle (R53, R162): the steps before the last fill `abuf` place by place,
and the last one ends the run with ABD's answer on the block. -/

namespace Sys2Proof.Machine

/-! ## The last address byte -/

/-- What the sequencer does at the last address byte with the answer of ABD (R162). -/
def State.concludeAddress (answer : Except DecodeError Endpoints) (s : State) : State :=
  match answer with
  | .ok _ => { s with st := .done }
  | .error e => s.raise e false

/-- With the last byte the run ends as ABD says (R162). -/
theorem finishAddress_of_last {before : State} (s : State) (hlast : before.alen.toNat ≤ before.acnt.toNat + 1) :
    before.finishAddress s = s.concludeAddress (decodeAddressBlockHw s.fam s.alen s.abuf) := by
  rcases finishAddress_cases before s with ⟨hmore, -⟩ | ⟨-, ⟨e, hok, hf⟩ | ⟨e, herror, hf⟩⟩
  · omega
  · rw [hf, hok]
    rfl
  · rw [hf, herror]
    rfl

/-! ## The address block taken so far -/

/-- The state with the first `n` bytes of an address block taken: they stand in `abuf` as far as it has places for them,
the places after them are zero, and `acnt` counts them (R22, R25, R40). -/
def State.withAddressTaken (a : List Byte) (n : Nat) (s : State) : State :=
  { s with abuf := Vector.ofFn fun k => if k.val < n then a.getD k.val 0#8 else 0#8, acnt := BitVec.ofNat 16 n }

theorem withAddressTaken_acnt_toNat (a : List Byte) {n : Nat} (hn : n ≤ 65535) (s : State) :
    (s.withAddressTaken a n).acnt.toNat = n :=
  Nat.mod_eq_of_lt (by omega)

theorem withAddressTaken_getElem (a : List Byte) (n : Nat) (s : State) {k : Nat} (hk : k < 36) :
    (s.withAddressTaken a n).abuf[k] = if k < n then a.getD k 0#8 else 0#8 := by
  simp [State.withAddressTaken]

theorem withAddressTaken_eq_of_abuf {a : List Byte} {b : AddrBuf} {n : Nat} {s : State}
    (hbuf : (s.withAddressTaken a n).abuf = b) :
    s.withAddressTaken a n = { s with abuf := b, acnt := BitVec.ofNat 16 n } := by
  rw [← hbuf]
  rfl

/-- A state with an empty address buffer is one with nothing of the block taken. -/
theorem withAddressTaken_zero (a : List Byte) {s : State} (hacnt : s.acnt = 0#16)
    (hzero : s.abuf = Vector.replicate 36 0#8) : s.withAddressTaken a 0 = s := by
  have hbuf : (s.withAddressTaken a 0).abuf = s.abuf := by
    ext1 k hk
    simp [withAddressTaken_getElem, hzero]
  rw [withAddressTaken_eq_of_abuf hbuf, ← hacnt]

/-- A block taken whole is held (R22). -/
theorem holds_withAddressTaken (a : List Byte) (s : State) :
    AddrBuf.Holds (s.withAddressTaken a a.length).abuf a := by
  intro k hk hka
  rw [withAddressTaken_getElem a _ s hk, if_pos hka, List.getD_eq_getElem _ _ hka]

/-- Storing the next byte of the block takes one byte more of it, held or dropped (R22, R162). -/
theorem storeAddressByte_withAddressTaken {a : List Byte} {n : Nat} (hn : n < a.length) (hcounted : n ≤ 65535)
    (s : State) : (s.withAddressTaken a n).storeAddressByte a[n] = s.withAddressTaken a (n + 1) := by
  have hbuf : ((s.withAddressTaken a n).storeAddressByte a[n]).abuf = (s.withAddressTaken a (n + 1)).abuf := by
    ext1 k hk
    rw [storeAddressByte_getElem _ _ k hk, withAddressTaken_acnt_toNat a hcounted, withAddressTaken_getElem _ _ _ hk,
      withAddressTaken_getElem _ _ _ hk]
    by_cases hat : k = n
    · simp [hat, hn]
    · have hbefore : k < n + 1 ↔ k < n := by omega
      simp only [if_neg hat, hbefore]
  rw [withAddressTaken_eq_of_abuf hbuf.symm, BitVec.ofNat_add]
  rfl

/-- A byte of the block before its last is taken, and nothing more (R162). -/
theorem exec_byte_withAddressTaken {a : List Byte} {n : Nat} (hn : n < a.length) {s : State} (hst : s.st = .awaitAddr)
    (hmore : n + 1 < s.alen.toNat) :
    exec (.byte a[n]) (s.withAddressTaken a n) = .next (s.withAddressTaken a (n + 1)) := by
  have hcounted : n ≤ 65535 := by
    have := s.alen.isLt
    omega
  have hbefore : (s.withAddressTaken a n).acnt.toNat + 1 < (s.withAddressTaken a n).alen.toNat := by
    rw [withAddressTaken_acnt_toNat a hcounted]
    exact hmore
  rw [exec_byte_awaitAddr (s := s.withAddressTaken a n) _ hst, State.finishAddress, if_pos hbefore,
    storeAddressByte_withAddressTaken hn hcounted]

/-- The last byte of the block ends the run with ABD's answer on the whole block (R135, R162). -/
theorem exec_byte_last_withAddressTaken {a : List Byte} {n : Nat} (hlast : a.length = n + 1) {s : State}
    (hst : s.st = .awaitAddr) (halen : s.alen.toNat = a.length) :
    exec (.byte a[n]) (s.withAddressTaken a n) =
      .next ((s.withAddressTaken a a.length).concludeAddress (decodeAddressBlock s.fam a)) := by
  have hcounted : n ≤ 65535 := by
    have := s.alen.isLt
    omega
  have hbefore : (s.withAddressTaken a n).alen.toNat ≤ (s.withAddressTaken a n).acnt.toNat + 1 := by
    rw [withAddressTaken_acnt_toNat a hcounted, ← hlast]
    exact halen.le
  have hanswer := decodeAddressBlockHw_of_holds (f := s.fam) halen (holds_withAddressTaken a s)
  rw [exec_byte_awaitAddr (s := s.withAddressTaken a n) _ hst, finishAddress_of_last _ hbefore,
    storeAddressByte_withAddressTaken (by omega) hcounted, ← hlast, ← hanswer]
  rfl

/-! ## Steps and runs -/

/-- With `n` bytes of a list sent, the next sample offers byte `n`. -/
theorem scriptSend_drop {a : List Byte} {n : Nat} (hn : n < a.length) (rest : List Pins) :
    scriptSend (a.drop n) ++ rest = .scriptByte a[n] :: (scriptSend (a.drop (n + 1)) ++ rest) := by
  rw [List.drop_eq_getElem_cons hn]
  rfl

/-- A step with the first `n` bytes of a block taken and the others on offer is `BYTE` on byte `n`. -/
theorem step_withAddressTaken {a : List Byte} {n : Nat} (hn : n < a.length) {s : State} (hst : s.st = .awaitAddr)
    (hseen : s.resetSeen = true) (rest : List Pins) :
    step (State.withAddressTaken a n { s with inputs := scriptSend (a.drop n) ++ rest }) =
      exec (.byte a[n])
        (State.withAddressTaken a n { s with inputs := scriptSend (a.drop (n + 1)) ++ rest }) :=
  step_scriptByte hseen (.inr hst) (scriptSend_drop hn rest)

/-- Steps on the bytes of a block, offered one a cycle, take that many of them, as long as `alen` counts one more. -/
theorem run_address_bytes (a : List Byte) (rest : List Pins) {s : State} (hst : s.st = .awaitAddr)
    (hseen : s.resetSeen = true) (hacnt : s.acnt = 0#16) (hzero : s.abuf = Vector.replicate 36 0#8)
    (hin : s.inputs = scriptSend a ++ rest) {n : Nat} (hn : n ≤ a.length) (hmore : n < s.alen.toNat) (k : Nat) :
    Host.Core.run Sys2Proof.core (n + k) s = Host.Core.run Sys2Proof.core k
      (State.withAddressTaken a n { s with inputs := scriptSend (a.drop n) ++ rest }) := by
  induction n generalizing k with
  | zero => rw [List.drop_zero, ← hin, withAddressTaken_zero a hacnt hzero, Nat.zero_add]
  | succ n ih =>
    have hstep := (step_withAddressTaken hn hst hseen rest).trans (exec_byte_withAddressTaken hn hst hmore)
    rw [Nat.add_right_comm, Nat.add_assoc, ih (by omega) (by omega), run_succ_of_step k hstep]

/-- As many steps as a block has bytes take it whole and end the run with ABD's answer on it (R162, R176). -/
theorem run_address_block {a : List Byte} (hne : a ≠ []) (rest : List Pins) {s : State} (hst : s.st = .awaitAddr)
    (hseen : s.resetSeen = true) (hacnt : s.acnt = 0#16) (hzero : s.abuf = Vector.replicate 36 0#8)
    (hin : s.inputs = scriptSend a ++ rest) (halen : s.alen.toNat = a.length) :
    Host.Core.run Sys2Proof.core a.length s = .next
      ((State.withAddressTaken a a.length { s with inputs := rest }).concludeAddress
        (decodeAddressBlock s.fam a)) := by
  obtain ⟨n, hlast⟩ : ∃ n, a.length = n + 1 := Nat.exists_eq_succ_of_ne_zero (by simpa using hne)
  have hstep := (step_withAddressTaken (by omega) hst hseen rest).trans
    (exec_byte_last_withAddressTaken (s := { s with inputs := _ }) hlast hst halen)
  have hrun := run_address_bytes a rest hst hseen hacnt hzero hin (n := n) (by omega) (by omega) 1
  rw [← hlast, run_succ_of_step 0 hstep, ← hlast, List.drop_length] at hrun
  exact hrun

end Sys2Proof.Machine
end

section
/-! PROOFS. A whole preamble: the header's sixteen bytes and then the address block (R85, R138, R150). -/

namespace Sys2Proof.Machine

/-! ## The header of a preamble -/

/-- A byte is put back together from its two nibbles (R13). -/
theorem hiNibble_append_loNibble (b : Byte) : hiNibble b ++ loNibble b = b :=
  BitVec.extractLsb'_append_extractLsb'

/-- The two length bytes of a header stand on the wire as `be16` reads them (R15, R85). -/
theorem wireHalf_be16 (b0 b1 : Byte) : wireHalf (be16 b0 b1) = [b0, b1] := by
  rw [wireHalf, be16, BitVec.extractLsb'_append_eq_left, BitVec.extractLsb'_append_eq_right]

/-- A header is its signature operand and the four bytes after it (R71, R100). -/
theorem toList_eq_signatureBytes_append (h : HeaderBuf) :
    h.toList = signatureBytes h ++ [h[12], h[13], h[14], h[15]] := by
  have htail : h.toList.drop 12 = [h[12], h[13], h[14], h[15]] := by
    simp [List.drop_eq_getElem_cons]
  rw [signatureBytes, ← htail, List.take_append_drop]

/-- The script form `HDR` gives the bytes of any header whose signature is right (R71, R85). -/
theorem scriptHdr_of_signatureField {h : HeaderBuf} (hsig : signatureField (headerWord h) = Config.signatureWord) :
    scriptHdr (hiNibble h[12]) (loNibble h[12]) (hiNibble h[13]) (loNibble h[13]) (be16 h[14] h[15]) = h.toList := by
  have hbytes : signatureBytes h = Config.signature.toList := beq_iff_eq.mp ((validateSignature_iff h).mpr hsig)
  rw [toList_eq_signatureBytes_append, hbytes, scriptHdr, hiNibble_append_loNibble, hiNibble_append_loNibble,
    wireHalf_be16, List.append_assoc]
  rfl

/-- The bytes of the script form `HDR` are those of the word that its fields build (R71, R85). -/
theorem scriptHdr_eq_headerBytes (v c f p : Nibble) (l : Half) :
    scriptHdr v c f p l = (headerBytes (headerFields Config.signatureWord v c f p l)).toList := by
  have hbytes := scriptHdr_of_signatureField
    (h := headerBytes (headerFields Config.signatureWord v c f p l)) (by simp)
  simpa only [← versionField_headerWord, ← commandField_headerWord, ← familyField_headerWord,
    ← protocolField_headerWord, ← addressLengthField_headerWord, headerWord_headerBytes, versionField_headerFields,
    commandField_headerFields, familyField_headerFields, protocolField_headerFields,
    addressLengthField_headerFields] using hbytes

/-- FHD on the bytes of a word is the outcome of the word's row (R76, R110). -/
theorem decodeHeader_headerBytes (w : BitVec 128) :
    decodeHeader (headerBytes w) = headerOutcome (classifyHeader w) w := by
  rw [headerMapAgreesWithDecoderSteps, headerWord_headerBytes]

/-- FHD accepts the header of a preamble of either family, with the fields that it was built from (R121). -/
theorem decodeHeader_preamble {f : Nibble} (hf : f = 1#4 ∨ f = 2#4) (p : Nibble) (l : Half) :
    decodeHeader (headerBytes (headerFields Config.signatureWord 2#4 1#4 f p l)) = .ok ⟨2#4, 1#4, f, p, l⟩ := by
  rcases hf with rfl | rfl <;> simp [decodeHeader_headerBytes, classifyHeader_eq, headerOutcome]

/-! ## The run -/

/-- A run goes on from the state that its first `m` steps answer. -/
theorem run_add_of_run {m : Nat} {s t : State} (h : Host.Core.run Sys2Proof.core m s = .next t) (k : Nat) :
    Host.Core.run Sys2Proof.core (m + k) s = Host.Core.run Sys2Proof.core k t := by
  induction m generalizing s with
  | zero =>
    cases h
    rw [Nat.zero_add]
  | succ m ih =>
    obtain ⟨u, hu, hrest⟩ := run_succ_eq_next.mp h
    rw [Nat.add_right_comm, run_succ_of_step (m + k) hu, ih hrest]

/-- In DONE the ports show the endpoints that ABD gives for the buffer (R33, R135). -/
theorem endpointView_of_decodeAddressBlockHw {s : State} {e : Endpoints} (hst : s.st = .done)
    (hok : decodeAddressBlockHw s.fam s.alen s.abuf = .ok e) : s.endpointView = e.ports := by
  rcases decodeAddressBlockHw_cases s.fam s.alen s.abuf with ⟨hf, -, he⟩ | ⟨hf, -, he⟩ | ⟨-, he⟩ | ⟨-, -, he⟩
  · cases he.symm.trans hok
    exact endpointView_of_inet4 hst hf
  · cases he.symm.trans hok
    exact endpointView_of_inet6 hst hf
  · cases he.symm.trans hok
  · cases he.symm.trans hok

/-- In DONE the result is the pair that FHD and ABD give for the two buffers (R150). -/
theorem result_of_done {s : State} {hd : Header} {e : Endpoints} (hst : s.st = .done)
    (hhdr : decodeHeader s.hbuf = .ok hd) (haddr : decodeAddressBlockHw s.fam s.alen s.abuf = .ok e) :
    s.result = some (hd, e) := by
  simp [State.result, hst, hhdr, haddr]

/-- A block that ABD accepts is not empty (R161). -/
theorem ne_nil_of_decodeAddressBlock_ok {f : Nibble} {a : List Byte} {e : Endpoints}
    (hok : decodeAddressBlock f a = .ok e) : a ≠ [] := by
  rintro rfl
  rw [decodeAddressBlock_nil] at hok
  cases hok

/-- The state behind an accepted header `w` with a block to follow: AWAIT_ADDR with the header in `hbuf`, and `rest`
still to be sampled (R160). -/
def State.behindHeader (w : BitVec 128) (rest : List Pins) (s : State) : State :=
  { s with st := .awaitAddr, hcnt := 16#5, hbuf := headerBytes w, inputs := rest }

/-- Sixteen steps on an accepted header with a block to follow bring an armed block behind that header (R160). -/
theorem run_accepted_header {s : State} {w : BitVec 128} {hd : Header} {rest : List Pins} (harmed : s.armed)
    (hseen : s.resetSeen = true) (hhdr : decodeHeader (headerBytes w) = .ok hd) (hlen : hd.addressLength ≠ 0#16)
    (hin : s.inputs = scriptSend (headerBytes w).toList ++ rest) :
    Host.Core.run Sys2Proof.core 16 s = .next (s.behindHeader w rest) := by
  have hst : s.st = .awaitHdr := st_of_armed harmed
  rw [sixteenBytesRunTheHeaderForm s w rest harmed hseen hin,
    exec_decodeHeaderWord w (s := { s with inputs := rest }) hst, hhdr, State.concludeHeader_ok]
  rcases acceptHeader_cases hd.family hd.addressLength (State.latchHeader w { s with inputs := rest }) with
    ⟨-, haccept⟩ | ⟨hzero, -⟩
  · rw [haccept]
    rfl
  · exact absurd hzero hlen

/-- Behind an accepted header, as many steps as its length says take the block and end the run with ABD's answer on it
(R162). -/
theorem run_block_behindHeader {s : State} {w : BitVec 128} {hd : Header} {a : List Byte} (harmed : s.armed)
    (hseen : s.resetSeen = true) (hhdr : decodeHeader (headerBytes w) = .ok hd)
    (hlen : hd.addressLength.toNat = a.length) (hne : a ≠ []) (rest : List Pins) :
    Host.Core.run Sys2Proof.core a.length (s.behindHeader w (scriptSend a ++ rest)) = .next
      (((s.behindHeader w rest).withAddressTaken a a.length).concludeAddress
        (decodeAddressBlock hd.family a)) := by
  have hacnt : s.acnt = 0#16 := (congrArg State.acnt harmed).symm
  have hzero : s.abuf = Vector.replicate 36 0#8 := (congrArg State.abuf harmed).symm
  rw [eq_of_decodeHeader_eq_ok hhdr] at hlen ⊢
  exact run_address_block hne rest (s := s.behindHeader w (scriptSend a ++ rest)) rfl hseen hacnt hzero rfl hlen

/-- What holds of a state in DONE whose buffers hold the header `w` and the block `a`: its result is what FHD and ABD
give for the two, and the ports show it. -/
theorem done_reports {u : State} {w : BitVec 128} {hd : Header} {a : List Byte} {e : Endpoints} (hst : u.st = .done)
    (hfull : u.hcnt = 16#5) (hbuf : u.hbuf = headerBytes w) (hacnt : u.acnt.toNat = a.length)
    (hheld : AddrBuf.Holds u.abuf a) (hhdr : decodeHeader (headerBytes w) = .ok hd)
    (hlen : hd.addressLength.toNat = a.length) (haddr : decodeAddressBlock hd.family a = .ok e) :
    u.pos.toNat = 16 + a.length ∧ u.result = some (hd, e) ∧ u.endpointView = e.ports := by
  rw [← hbuf] at hhdr
  have hfields := eq_of_decodeHeader_eq_ok hhdr
  have halen : u.alen = hd.addressLength := (congrArg Header.addressLength hfields).symm
  have hfam : u.fam = hd.family := (congrArg Header.family hfields).symm
  have hok : decodeAddressBlockHw u.fam u.alen u.abuf = .ok e := by
    rw [decodeAddressBlockHw_of_holds (by rw [halen, hlen]) hheld, hfam, haddr]
  refine ⟨?_, result_of_done hst hhdr hok, endpointView_of_decodeAddressBlockHw hst hok⟩
  rw [pos_toNat, hfull, hacnt]
  rfl

/-- An accepted header and a block that ABD accepts, of the length that the header says, end in DONE with that pair
(R150, R176). -/
theorem run_header_and_block {s : State} {w : BitVec 128} {hd : Header} {a : List Byte} {e : Endpoints}
    {rest : List Pins} (harmed : s.armed) (hseen : s.resetSeen = true)
    (hhdr : decodeHeader (headerBytes w) = .ok hd) (hlen : hd.addressLength.toNat = a.length)
    (haddr : decodeAddressBlock hd.family a = .ok e)
    (hin : s.inputs = scriptSend (headerBytes w).toList ++ (scriptSend a ++ rest)) :
    ∃ u, Host.Core.run Sys2Proof.core (16 + a.length) s = .next u ∧ u.st = .done ∧ u.pos.toNat = 16 + a.length ∧
      u.result = some (hd, e) ∧ u.endpointView = e.ports := by
  have hne := ne_nil_of_decodeAddressBlock_ok haddr
  have hsome : hd.addressLength ≠ 0#16 := by
    intro hzero
    rw [hzero] at hlen
    exact hne (List.length_eq_zero_iff.mp hlen.symm)
  have hcounted : a.length ≤ 65535 := by
    have := hd.addressLength.isLt
    omega
  have hblock := run_block_behindHeader harmed hseen hhdr hlen hne rest
  rw [haddr] at hblock
  exact ⟨_, (run_add_of_run (run_accepted_header harmed hseen hhdr hsome hin) a.length).trans hblock, rfl,
    done_reports rfl rfl rfl (withAddressTaken_acnt_toNat a hcounted (s.behindHeader w rest))
      (holds_withAddressTaken a (s.behindHeader w rest)) hhdr hlen haddr⟩

/-- The preamble of either family, around any block that ABD accepts, ends in DONE with that block's endpoints. -/
theorem run_preamble {s : State} {f : Nibble} (p : Nibble) {a : List Byte} {e : Endpoints} (harmed : s.armed)
    (hseen : s.resetSeen = true) (hf : f = 1#4 ∨ f = 2#4) (haddr : decodeAddressBlock f a = .ok e)
    (hlen : a.length ≤ 65535)
    (hin : s.inputs = scriptSend (scriptHdr 2#4 1#4 f p (BitVec.ofNat 16 a.length) ++ a)) :
    ∃ u, Host.Core.run Sys2Proof.core (16 + a.length) s = .next u ∧ u.st = .done ∧ u.pos.toNat = 16 + a.length ∧
      u.result = some (⟨2#4, 1#4, f, p, BitVec.ofNat 16 a.length⟩, e) ∧ u.endpointView = e.ports := by
  rw [scriptHdr_eq_headerBytes, scriptSend, List.map_append, ← scriptSend, ← scriptSend,
    ← List.append_nil (scriptSend a)] at hin
  exact run_header_and_block harmed hseen (decodeHeader_preamble hf p _) (Nat.mod_eq_of_lt (by omega)) haddr hin

/-- Settles O58: the block is the wire form of the endpoints and the padding, which ABD does not look at. -/
theorem inet4PreambleRoundTrip : Obligations.Inet4PreambleRoundTrip := by
  intro s e p pad harmed hseen hsrc hdst hpad hin
  have hlen : (wireEndpoints e ++ List.replicate pad 0#8).length = 12 + pad := by
    rw [List.length_append, length_wireEndpoints, List.length_replicate, hsrc, hdst]
  have haddr := decodeAddressBlock_wireEndpoints4 hsrc hdst (List.replicate pad 0#8)
  have hrun := run_preamble (s := s) p harmed hseen (.inl rfl) haddr (by omega)
    (by rw [hin, preambleInet4, hlen, List.append_assoc])
  rwa [hlen, ← Nat.add_assoc] at hrun

/-- Settles O59, as O58 for the other family. -/
theorem inet6PreambleRoundTrip : Obligations.Inet6PreambleRoundTrip := by
  intro s e p pad harmed hseen hsrc hdst hpad hin
  have hlen : (wireEndpoints e ++ List.replicate pad 0#8).length = 36 + pad := by
    rw [List.length_append, length_wireEndpoints, List.length_replicate, hsrc, hdst]
  have haddr := decodeAddressBlock_wireEndpoints6 hsrc hdst (List.replicate pad 0#8)
  have hrun := run_preamble (s := s) p harmed hseen (.inr rfl) haddr (by omega)
    (by rw [hin, preambleInet6, hlen, List.append_assoc])
  rwa [hlen, ← Nat.add_assoc] at hrun

end Sys2Proof.Machine
end

section
/-! PROOFS. The signature validator (R100 to R106): which operands match (R101, R104), and what one wrong byte or one
wrong bit of the signature does to a header (R105). -/

namespace Sys2Proof.Machine

/-! ## The operands that match -/

theorem signature_toList :
    Config.signature.toList =
      [0x0D#8, 0x0A#8, 0x0D#8, 0x0A#8, 0x00#8, 0x0D#8, 0x0A#8, 0x51#8, 0x52#8, 0x4F#8, 0x54#8, 0x0A#8] := rfl

/-- Settles O7: SIGV compares the whole operand, its length included, with the twelve bytes. -/
theorem signatureComparedWhole : Obligations.SignatureComparedWhole := by
  intro s
  rw [validateSignature, beq_iff_eq, signature_toList]

/-- The signature of a header matches exactly when each of the header's first twelve bytes does (R100, R101). -/
theorem validateSignature_signatureBytes_iff (h : HeaderBuf) :
    validateSignature (signatureBytes h) = true ↔ ∀ k (_ : k < 12), h[k] = Config.signature[k] :=
  (validateSignature_iff h).trans (signatureField_headerWord_iff h)

/-! ## A wrong byte -/

/-- SIGV's answer comes first in FHD, whatever the rest of the header holds (R110). -/
theorem decodeHeader_of_not_validateSignature {h : HeaderBuf} (hbad : ¬ validateSignature (signatureBytes h) = true) :
    decodeHeader h = .error .signatureMismatch :=
  if_pos (Bool.eq_false_of_not_eq_true hbad)

/-- One wrong byte is enough, wherever it stands among the twelve. -/
theorem decodeHeader_of_getElem_ne {h : HeaderBuf} {k : Nat} (hk : k < 12) (hne : h[k] ≠ Config.signature[k]) :
    decodeHeader h = .error .signatureMismatch :=
  decodeHeader_of_not_validateSignature fun hok => hne ((validateSignature_signatureBytes_iff h).mp hok k hk)

/-! ## A wrong bit -/

/-- A flipped bit changes its word: the two words differ at that bit. -/
theorem xor_twoPow_ne {n j : Nat} (b : BitVec n) (hj : j < n) : b ^^^ BitVec.twoPow n j ≠ b := by
  intro h
  have hbit := congrArg (BitVec.getLsbD · j) h
  simp [hj] at hbit

/-- Settles O8: the byte with the flipped bit is no longer the signature's. -/
theorem signatureBitFlipRejected : Obligations.SignatureBitFlipRejected := by
  intro h i j hok
  have hbyte : h[i.val] = Config.signature[i.val] := (validateSignature_signatureBytes_iff h).mp hok i.val i.isLt
  refine decodeHeader_of_getElem_ne i.isLt ?_
  rw [Vector.getElem_setIfInBounds_self, ← hbyte]
  exact xor_twoPow_ne _ j.isLt

end Sys2Proof.Machine
end

section
/-! PROOFS. FHD (R110 to R122): the checks in their order and the record of an accepted header, and what the header
forms that it tells apart do to the state (R112 to R119, R160). -/

namespace Sys2Proof.Machine

/-! ## The fields of the last four bytes -/

/-- A byte is fixed by its two nibbles (R13). -/
theorem eq_append_iff_nibbles {b : Byte} {hi lo : Nibble} : b = hi ++ lo ↔ hiNibble b = hi ∧ loNibble b = lo := by
  constructor
  · rintro rfl
    exact ⟨BitVec.extractLsb'_append_eq_left, BitVec.extractLsb'_append_eq_right⟩
  · rintro ⟨rfl, rfl⟩
    exact (hiNibble_append_loNibble b).symm

/-- Byte 12 holds version 2 and command 1 exactly when it is `0x21` (R71). -/
theorem eq_0x21_iff_nibbles {b : Byte} : b = 0x21#8 ↔ hiNibble b = 2#4 ∧ loNibble b = 1#4 :=
  eq_append_iff_nibbles (hi := 2#4) (lo := 1#4)

/-- `be16` reads big-endian: the byte at the lower offset weighs 256 (R15). -/
theorem be16_toNat (b0 b1 : Byte) : (be16 b0 b1).toNat = 256 * b0.toNat + b1.toNat := by
  rw [be16, BitVec.toNat_append, ← Nat.shiftLeft_add_eq_or_of_lt b1.isLt, Nat.shiftLeft_eq, Nat.mul_comm]

/-! ## The checks of FHD -/

/-- Settles O10: each clause runs R110's chain of checks as far as its own. -/
theorem headerErrorPriority : Obligations.HeaderErrorPriority := by
  refine fun h => ⟨fun hsig => ?_, fun hsig hversion => ?_, fun hsig hversion hcommand => ?_,
    fun hsig hversion hcommand hnot4 hnot6 => ?_, fun hsig hversion hcommand hfamily => ?_⟩
  · exact decodeHeader_of_not_validateSignature (by simp [hsig])
  · simp [decodeHeader, hsig, hversion]
  · simp [decodeHeader, hsig, hversion, hcommand]
  · simp [decodeHeader, hsig, hversion, hcommand, hnot4, hnot6]
  · have hknown : ¬(hiNibble h[13] ≠ 1#4 ∧ hiNibble h[13] ≠ 2#4) := by tauto
    simp [decodeHeader, hsig, hversion, hcommand, hknown]

/-- An accepted header has failed none of the four checks (R110). -/
theorem checks_of_decodeHeader_eq_ok {h : HeaderBuf} {hd : Header} (hok : decodeHeader h = .ok hd) :
    validateSignature (signatureBytes h) = true ∧ hiNibble h[12] = 2#4 ∧ loNibble h[12] = 1#4 ∧
      (hiNibble h[13] = 1#4 ∨ hiNibble h[13] = 2#4) := by
  simp only [decodeHeader] at hok
  split_ifs at hok with hsig hversion hcommand hfamily
  exact ⟨Bool.eq_true_of_not_eq_false hsig, not_not.mp hversion, not_not.mp hcommand, by tauto⟩

/-- Settles O9: acceptance is that no check fails, and the two nibbles of byte 12 are checked as one byte. -/
theorem acceptedHeadersExactly : Obligations.AcceptedHeadersExactly := by
  refine fun h hd => ⟨fun hok => ?_, ?_⟩
  · obtain ⟨hsig, hversion, hcommand, hfamily⟩ := checks_of_decodeHeader_eq_ok hok
    rw [eq_of_decodeHeader_eq_ok hok]
    exact ⟨hsig, eq_0x21_iff_nibbles.mpr ⟨hversion, hcommand⟩, hfamily, hversion, hcommand, rfl, rfl,
      be16_toNat _ _⟩
  · rintro ⟨hsig, hbyte, hfamily, hv, hc, hf, hp, hlength⟩
    obtain ⟨hversion, hcommand⟩ := eq_0x21_iff_nibbles.mp hbyte
    obtain ⟨-, -, -, -, accepts⟩ := headerErrorPriority h
    rw [accepts hsig hversion hcommand hfamily, ← hv, ← hc, ← hf, ← hp,
      ← BitVec.eq_of_toNat_eq (hlength.trans (be16_toNat _ _).symm)]

/-! ## The accepting forms -/

/-- The bytes of an accepted header's word (R71, R101). -/
theorem headerBytes_accepted (f p : Nibble) (l : Half) :
    headerBytes (headerFields Config.signatureWord 2#4 1#4 f p l) =
      #v[0x0D#8, 0x0A#8, 0x0D#8, 0x0A#8, 0x00#8, 0x0D#8, 0x0A#8, 0x51#8, 0x52#8, 0x4F#8, 0x54#8, 0x0A#8,
        0x21#8, f ++ p, l.extractLsb' 8 8, l.extractLsb' 0 8] :=
  Vector.toList_inj.mp (scriptHdr_eq_headerBytes 2#4 1#4 f p l).symm

/-- The beat of an accepted header that announces an address block awaits the block (R160). -/
theorem headerBeat_acceptHeader {f : Nibble} (p : Nibble) {l : Half} {s : State} (hst : s.st = .awaitHdr)
    (hl : l ≠ 0#16) :
    headerBeat (headerFields Config.signatureWord 2#4 1#4 f p l) (State.acceptHeader f l) s =
      .next { s with
        st := .awaitAddr
        hcnt := 16#5
        hbuf := #v[0x0D#8, 0x0A#8, 0x0D#8, 0x0A#8, 0x00#8, 0x0D#8, 0x0A#8, 0x51#8, 0x52#8, 0x4F#8, 0x54#8, 0x0A#8,
          0x21#8, f ++ p, l.extractLsb' 8 8, l.extractLsb' 0 8] } := by
  obtain ⟨-, hawait⟩ | ⟨hzero, -⟩ :=
    acceptHeader_cases f l (s.latchHeader (headerFields Config.signatureWord 2#4 1#4 f p l))
  · rw [headerBeat_awaitHdr hst, hawait, ← headerBytes_accepted f p l]
    rfl
  · exact absurd hzero hl

/-- Settles O16: the form is the header-completing beat of family 1. -/
theorem proxyInet4Accepted : Obligations.ProxyInet4Accepted :=
  fun _ protocol _ hst hl => headerBeat_acceptHeader protocol hst hl

/-- Settles O17: as for family 1, the beat of family 2. -/
theorem proxyInet6Accepted : Obligations.ProxyInet6Accepted :=
  fun _ protocol _ hst hl => headerBeat_acceptHeader protocol hst hl

/-! ## The rejecting forms -/

theorem signatureWord_eq : Config.signatureWord = 0x0D0A0D0A000D0A51524F540A#96 := by decide

/-- A word's fields with byte 12 written as one byte (R71). -/
theorem headerFields_eq_append_0x21 (g : BitVec 96) (f p : Nibble) (l : Half) :
    headerFields g 2#4 1#4 f p l = g ++ 0x21#8 ++ f ++ p ++ l := by
  have hbyte : g ++ 2#4 ++ 1#4 = g ++ 0x21#8 := BitVec.append_assoc
  rw [← hbyte]
  rfl

/-- The beat of a rejected header: the word is latched, the error raised and everything else kept, and `disp` is what
R31 gives that error (R160, R210). -/
theorem headerBeat_raise (w : BitVec 128) (e : DecodeError) {s : State} (hst : s.st = .awaitHdr) :
    ∃ t, headerBeat w (State.raise e false) s = .next t ∧
      t = { s with st := .rejected, err := e.code, ioCause := false, hcnt := 16#5, hbuf := t.hbuf } ∧
      headerWord t.hbuf = w ∧
      t.disp =
        if (e.code = 3#4 ∧ s.cfg.getLsbD 0 = true) ∨ (e.code = 5#4 ∧ s.cfg.getLsbD 1 = true) then .pass
        else .drop :=
  ⟨_, headerBeat_awaitHdr hst, rfl, headerWord_headerBytes w, disp_of_rejected rfl⟩

/-- Settles O19: error 3 is one of the two kinds that `CFG` can let pass. -/
theorem wrongSignatureRejected : Obligations.WrongSignatureRejected := by
  intro s g v c f p l hst
  obtain ⟨t, hexec, hframe, hword, hdisp⟩ := headerBeat_raise (headerFields g v c f p l) .signatureMismatch hst
  exact ⟨t, hexec, hframe, hword, by simpa [DecodeError.code] using hdisp⟩

/-- Settles O20: `CFG` lets error 4 never pass. -/
theorem wrongVersionRejected : Obligations.WrongVersionRejected := by
  intro s v c f p l hst
  rw [← signatureWord_eq]
  obtain ⟨t, hexec, hframe, hword, hdisp⟩ :=
    headerBeat_raise (headerFields Config.signatureWord v c f p l) .unsupportedVersion hst
  exact ⟨t, hexec, hframe, hword, by simpa [DecodeError.code] using hdisp⟩

/-- Settles O21: error 5 is the other kind that `CFG` can let pass. -/
theorem wrongCommandRejected : Obligations.WrongCommandRejected := by
  intro s c f p l hst
  rw [← signatureWord_eq]
  obtain ⟨t, hexec, hframe, hword, hdisp⟩ :=
    headerBeat_raise (headerFields Config.signatureWord 2#4 c f p l) .unsupportedCommand hst
  exact ⟨t, hexec, hframe, hword, by simpa [DecodeError.code] using hdisp⟩

/-- Settles O22: `CFG` lets error 6 never pass, and the frame keeps `acnt` and `abuf`. -/
theorem wrongFamilyRejected : Obligations.WrongFamilyRejected := by
  intro s f p l hst
  rw [← signatureWord_eq, ← headerFields_eq_append_0x21]
  obtain ⟨t, hexec, hframe, hword, hdisp⟩ :=
    headerBeat_raise (headerFields Config.signatureWord 2#4 1#4 f p l) .unknownAddressFamily hst
  exact ⟨t, hexec, hframe, hword, by simpa [DecodeError.code] using hdisp⟩

end Sys2Proof.Machine
end

section
/-! PROOFS. ABD (R130 to R140): the family's minimum decides between decoding and `TruncatedAddressBlock`, for a block,
for the hardware's buffer and at the last address byte (R131, R175), and a block that is long enough is the wire form of
the endpoints it shows (R132, R133, R138). -/

namespace Sys2Proof.Machine

/-! ## The least length of a family -/

/-- The families that have a least length, and what it is (R131). -/
theorem familyMinimum_eq_some_iff {f : Nibble} {m : Nat} :
    familyMinimum f = some m ↔ (f = 1#4 ∧ m = 12) ∨ (f = 2#4 ∧ m = 36) := by
  simp only [familyMinimum, Config.famInet4, Config.famInet6, Config.v4Min, Config.v6Min]
  split_ifs with hinet4 hinet6
  · simp [hinet4, eq_comm]
  · simp [hinet6, eq_comm]
  · simp [hinet4, hinet6]

theorem decodeAddressBlock_of_lt_minimum {f : Nibble} {m : Nat} {a : List Byte} (hmin : familyMinimum f = some m)
    (hshort : a.length < m) : decodeAddressBlock f a = .error .truncatedAddressBlock := by
  obtain ⟨rfl, rfl⟩ | ⟨rfl, rfl⟩ := familyMinimum_eq_some_iff.mp hmin
  · rw [decodeAddressBlock, if_pos rfl, if_pos hshort]
  · rw [decodeAddressBlock, if_neg (by decide), if_pos rfl, if_pos hshort]

theorem decodeAddressBlock_of_minimum_le {f : Nibble} {m : Nat} {a : List Byte} (hmin : familyMinimum f = some m)
    (hlong : m ≤ a.length) : ∃ e, decodeAddressBlock f a = .ok e := by
  obtain ⟨rfl, rfl⟩ | ⟨rfl, rfl⟩ := familyMinimum_eq_some_iff.mp hmin
  · exact ⟨_, by rw [decodeAddressBlock, if_pos rfl, if_neg hlong.not_gt]⟩
  · exact ⟨_, by rw [decodeAddressBlock, if_neg (by decide), if_pos rfl, if_neg hlong.not_gt]⟩

/-- A family without a least length is rejected on the family alone (R134, R140). -/
theorem decodeAddressBlock_of_unknown_family {f : Nibble} (hnot4 : f ≠ 1#4) (hnot6 : f ≠ 2#4) (a : List Byte) :
    decodeAddressBlock f a = .error .unknownAddressFamily := by
  rw [decodeAddressBlock, if_neg hnot4, if_neg hnot6]

/-- Settles O13: the minimum is 12 for family 1 and 36 for family 2, and the others have none. -/
theorem blockFamilyAndLengthChecked : Obligations.BlockFamilyAndLengthChecked := fun a =>
  ⟨decodeAddressBlock_of_lt_minimum rfl, decodeAddressBlock_of_lt_minimum rfl, decodeAddressBlock_of_minimum_le rfl,
    decodeAddressBlock_of_minimum_le rfl, fun _ hnot4 hnot6 => decodeAddressBlock_of_unknown_family hnot4 hnot6 a⟩

/-! ## The fields of a block -/

/-- A block's first bytes, as two addresses and four port bytes, are the wire form of endpoints whose ports are those
bytes in big-endian order (R72, R73, R85). -/
theorem wireEndpoints_be16 (src dst : List Byte) (p0 p1 q0 q1 : Byte) :
    wireEndpoints ⟨src, dst, be16 p0 p1, be16 q0 q1⟩ = src ++ dst ++ [p0, p1, q0, q1] := by
  simp [wireEndpoints, wireHalf_be16]

/-- Settles O15: ABD on the wire form reads every field back, in either family. -/
theorem endpointsRoundTrip : Obligations.EndpointsRoundTrip := fun _ rest =>
  ⟨fun ⟨hsrc, hdst⟩ => decodeAddressBlock_wireEndpoints4 hsrc hdst rest,
    fun ⟨hsrc, hdst⟩ => decodeAddressBlock_wireEndpoints6 hsrc hdst rest⟩

/-- Settles O11: the twelve bytes are the wire form of the endpoints that they show. -/
theorem inet4BlockDecoded : Obligations.Inet4BlockDecoded := by
  intro a0 a1 a2 a3 a4 a5 a6 a7 a8 a9 a10 a11 rest
  have hdecode := decodeAddressBlock_wireEndpoints4
    (e := ⟨[a0, a1, a2, a3], [a4, a5, a6, a7], be16 a8 a9, be16 a10 a11⟩) rfl rfl rest
  rw [wireEndpoints_be16] at hdecode
  exact ⟨_, hdecode, rfl, rfl, be16_toNat a8 a9, be16_toNat a10 a11⟩

/-- Settles O12: as for family 1, with sixteen octets in each address. -/
theorem inet6BlockDecoded : Obligations.Inet6BlockDecoded := by
  intro src dst a32 a33 a34 a35 rest
  have hdecode := decodeAddressBlock_wireEndpoints6
    (e := ⟨src.toList, dst.toList, be16 a32 a33, be16 a34 a35⟩) src.length_toList dst.length_toList rest
  rw [wireEndpoints_be16] at hdecode
  exact ⟨_, hdecode, rfl, rfl, be16_toNat a32 a33, be16_toNat a34 a35⟩

/-! ## The hardware's decoder -/

/-- Settles O14: the length fits in sixteen bits, and the buffer holds all that ABD reads of the block. -/
theorem hardwareAddressDecoderAgrees : Obligations.HardwareAddressDecoderAgrees := by
  intro f a buf hlen hbuf
  have hlength : (BitVec.ofNat 16 a.length).toNat = a.length := Nat.mod_eq_of_lt (by omega)
  have hheld : AddrBuf.Holds buf a := fun k hk hka =>
    Option.some.inj ((hbuf ⟨k, hk⟩ hka).symm.trans (List.getElem?_eq_getElem hka))
  exact (decodeAddressBlockHw_of_holds hlength hheld).symm

/-- Whatever the buffer and the length are, they are those of some block (R22). -/
theorem exists_block_held (l : Half) (buf : AddrBuf) : ∃ a : List Byte, a.length = l.toNat ∧ AddrBuf.Holds buf a :=
  ⟨List.ofFn fun k : Fin l.toNat => buf.toList.getD k 0#8, List.length_ofFn, fun k hk _ => by
    rw [List.getElem_ofFn, getD_abuf buf hk]⟩

theorem decodeAddressBlockHw_of_lt_minimum {f : Nibble} {m : Nat} {l : Half} (hmin : familyMinimum f = some m)
    (hshort : l.toNat < m) (buf : AddrBuf) : decodeAddressBlockHw f l buf = .error .truncatedAddressBlock := by
  obtain ⟨a, hlen, hheld⟩ := exists_block_held l buf
  rw [decodeAddressBlockHw_of_holds hlen.symm hheld]
  exact decodeAddressBlock_of_lt_minimum hmin (hlen ▸ hshort)

theorem decodeAddressBlockHw_of_minimum_le {f : Nibble} {m : Nat} {l : Half} (hmin : familyMinimum f = some m)
    (hlong : m ≤ l.toNat) (buf : AddrBuf) : ∃ e, decodeAddressBlockHw f l buf = .ok e := by
  obtain ⟨a, hlen, hheld⟩ := exists_block_held l buf
  rw [decodeAddressBlockHw_of_holds hlen.symm hheld]
  exact decodeAddressBlock_of_minimum_le hmin (hlen ▸ hlong)

/-! ## The last address byte -/

/-- The last address byte is stored, and the run ends with ABD's answer on the buffer that holds it (R162). -/
theorem exec_byte_last_awaitAddr (b : Byte) {s : State} (hst : s.st = .awaitAddr)
    (hlast : s.acnt.toNat + 1 = s.alen.toNat) :
    exec (.byte b) s = .next ((s.storeAddressByte b).concludeAddress
      (decodeAddressBlockHw s.fam s.alen (s.storeAddressByte b).abuf)) := by
  rw [exec_byte_awaitAddr b hst, finishAddress_of_last _ hlast.ge]
  rfl

/-- A block that reaches its family's minimum ends the run in DONE (R175). -/
theorem st_done_of_last_byte {s t : State} {b : Byte} {m : Nat} (hst : s.st = .awaitAddr)
    (hlast : s.acnt.toNat + 1 = s.alen.toNat) (hexec : exec (.byte b) s = .next t)
    (hmin : familyMinimum s.fam = some m) (hlong : m ≤ s.alen.toNat) : t.st = .done := by
  obtain ⟨e, hok⟩ := decodeAddressBlockHw_of_minimum_le hmin hlong (s.storeAddressByte b).abuf
  rw [exec_byte_last_awaitAddr b hst hlast, hok] at hexec
  cases hexec
  rfl

/-- A block that stays below its family's minimum is rejected with error 7 at its last byte (R175). -/
theorem truncated_of_last_byte {s t : State} {b : Byte} {m : Nat} (hst : s.st = .awaitAddr)
    (hlast : s.acnt.toNat + 1 = s.alen.toNat) (hexec : exec (.byte b) s = .next t)
    (hmin : familyMinimum s.fam = some m) (hshort : s.alen.toNat < m) : t.st = .rejected ∧ t.err = 7#4 := by
  rw [exec_byte_last_awaitAddr b hst hlast, decodeAddressBlockHw_of_lt_minimum hmin hshort] at hexec
  cases hexec
  exact ⟨rfl, rfl⟩

/-- Settles O32: the two outcomes at the last byte, at the minimum of each family. -/
theorem familyMinimumDecidesTheRun : Obligations.FamilyMinimumDecidesTheRun := by
  intro s t b hst hlast hexec
  have hmin4 (hf : s.fam = 1#4) : familyMinimum s.fam = some 12 := familyMinimum_eq_some_iff.mpr (.inl ⟨hf, rfl⟩)
  have hmin6 (hf : s.fam = 2#4) : familyMinimum s.fam = some 36 := familyMinimum_eq_some_iff.mpr (.inr ⟨hf, rfl⟩)
  exact ⟨fun hf => st_done_of_last_byte hst hlast hexec (hmin4 hf),
    fun hf => truncated_of_last_byte hst hlast hexec (hmin4 hf),
    fun hf => st_done_of_last_byte hst hlast hexec (hmin6 hf),
    fun hf => truncated_of_last_byte hst hlast hexec (hmin6 hf)⟩

end Sys2Proof.Machine
end

section
/-! PROOFS. The events one by one (R158 to R173): which pins give each event, what the terminators, `CLR`, `RST` and
`CFGW` do, and what a cycle can do in a terminal state. -/

namespace Sys2Proof.Machine

/-! ## Which pins give an event -/

theorem reduce_of_rst {p : Pins} (hrst : p.rst = true) (s : State) : reduce s p = .rst := by
  rw [reduceFollowsPriority, reduceByPriority, if_pos hrst]

theorem reduce_of_clr {p : Pins} (hrst : p.rst = false) (hclr : p.clr = true) (s : State) : reduce s p = .clr := by
  rw [reduceFollowsPriority, reduceByPriority, if_neg (by simp [hrst]), if_pos hclr]

/-- Below `RST` and `CLR`, the events that a sample can reduce to stand in the order of R158. -/
theorem reduce_of_not_rst_clr {p : Pins} (hrst : p.rst = false) (hclr : p.clr = false) (s : State) :
    reduce s p =
      if p.timeout then .timeout
      else if p.inErr then .ioerr
      else if p.inValid && s.inReady then .byte p.inData
      else if p.inEof then .eof
      else .noEvent := by
  rw [reduceFollowsPriority, reduceByPriority, if_neg (by simp [hrst]), if_neg (by simp [hclr])]

theorem reduce_of_timeout {p : Pins} (hrst : p.rst = false) (hclr : p.clr = false) (htimeout : p.timeout = true)
    (s : State) : reduce s p = .timeout := by
  rw [reduce_of_not_rst_clr hrst hclr, if_pos htimeout]

theorem reduce_of_inErr {p : Pins} (hrst : p.rst = false) (hclr : p.clr = false) (htimeout : p.timeout = false)
    (herr : p.inErr = true) (s : State) : reduce s p = .ioerr := by
  rw [reduce_of_not_rst_clr hrst hclr, if_neg (by simp [htimeout]), if_pos herr]

theorem waiting_or_terminal (s : State) : s.waiting ∨ s.terminal := by
  cases hst : s.st <;> simp [State.waiting, State.terminal, hst]

theorem inReady_of_terminal {s : State} (hst : s.terminal) : s.inReady = false := by
  rcases hst with hst | hst <;> simp [State.inReady, hst]

/-- Settles O33: the test for `BYTE` fails on `in_ready`, and no other test answers `BYTE`. -/
theorem noByteEventInTerminalState : Obligations.NoByteEventInTerminalState := by
  intro s p b hst
  simp only [reduceFollowsPriority s p, reduceByPriority, inReady_of_terminal hst, Bool.and_false, Bool.false_eq_true,
    if_false]
  split_ifs <;> simp

/-- Settles O27: with a byte offered and taken, the tests of R158 end at `BYTE` at the latest. -/
theorem noneChangesNothing : Obligations.NoneChangesNothing := by
  refine ⟨fun _ => rfl, fun s p hst hvalid => ?_⟩
  simp only [reduceFollowsPriority s p, reduceByPriority, hvalid, (inReady_iff s).mpr hst, Bool.and_self, if_true]
  split_ifs <;> simp

/-! ## The terminators -/

theorem endRun_of_awaitHdr {s : State} (hst : s.st = .awaitHdr) (eh ea : DecodeError) (io : Bool) :
    endRun eh ea io s = .next (s.raise eh io) := by
  simp [endRun, hst]

theorem endRun_of_awaitAddr {s : State} (hst : s.st = .awaitAddr) (eh ea : DecodeError) (io : Bool) :
    endRun eh ea io s = .next (s.raise ea io) := by
  simp [endRun, hst]

theorem endRun_of_terminal {s : State} (hst : s.terminal) (eh ea : DecodeError) (io : Bool) :
    endRun eh ea io s = .next s := by
  rcases hst with hst | hst <;> simp [endRun, hst]

/-- A terminator that raises one kind in both waiting states raises it in either. -/
theorem endRun_of_waiting {s : State} (hst : s.waiting) (e : DecodeError) (io : Bool) :
    endRun e e io s = .next (s.raise e io) :=
  hst.elim (endRun_of_awaitHdr · e e io) (endRun_of_awaitAddr · e e io)

/-- Settles O34: `EOF` is the terminator with kinds 1 and 2 and `io_cause` clear. -/
theorem eofWhileWaiting : Obligations.EofWhileWaiting := fun _ =>
  ⟨fun hst => endRun_of_awaitHdr hst _ _ false, fun hst => endRun_of_awaitAddr hst _ _ false⟩

/-- Settles O35: `IOERR` is the same terminator with `io_cause` set, and its pin is tested before `in_valid`. -/
theorem ioerrWhileWaiting : Obligations.IoerrWhileWaiting :=
  ⟨fun s _ hrst hclr htimeout herr => reduce_of_inErr hrst hclr htimeout herr s, fun _ =>
    ⟨fun hst => endRun_of_awaitHdr hst _ _ true, fun hst => endRun_of_awaitAddr hst _ _ true⟩⟩

/-- Settles O36: `TIMEOUT` raises kind 8 in either waiting state, and its pin is tested before `in_valid`. -/
theorem timeoutWhileWaiting : Obligations.TimeoutWhileWaiting :=
  ⟨fun s _ hrst hclr htimeout => reduce_of_timeout hrst hclr htimeout s, fun _ hst =>
    endRun_of_waiting hst .timeout false⟩

/-- Settles O37: the three are `endRun`, which does nothing in a terminal state. -/
theorem terminatorsIgnoredAfterTheEnd : Obligations.TerminatorsIgnoredAfterTheEnd := fun _ hst =>
  ⟨endRun_of_terminal hst _ _ false, endRun_of_terminal hst _ _ true, endRun_of_terminal hst _ _ false⟩

/-- Settles O40: the event is the terminator, and without a configuration write the cycle is that event alone. -/
theorem terminatorsBeatByteAndEof : Obligations.TerminatorsBeatByteAndEof := by
  intro s p hseen hst hrst hclr hquiet
  refine ⟨fun htimeout => ?_, fun htimeout herr => ?_⟩
  · have hevent := reduce_of_timeout hrst hclr htimeout s
    exact cycle_of_noConfigWrite hseen (by rw [hevent]; exact endRun_of_waiting hst .timeout false) (.inr hquiet)
  · have hevent := reduce_of_inErr hrst hclr htimeout herr s
    rcases hst with hst | hst
    · have hexec : exec (reduce s p) s = .next (s.raise .incompleteHeader true) := by
        rw [hevent]
        exact endRun_of_awaitHdr hst _ _ true
      exact ⟨_, cycle_of_noConfigWrite hseen hexec (.inr hquiet), rfl, rfl, rfl, (if_pos hst).symm⟩
    · have hexec : exec (reduce s p) s = .next (s.raise .incompleteAddressBlock true) := by
        rw [hevent]
        exact endRun_of_awaitAddr hst _ _ true
      have hne : s.st ≠ .awaitHdr := by simp [hst]
      exact ⟨_, cycle_of_noConfigWrite hseen hexec (.inr hquiet), rfl, rfl, rfl, (if_neg hne).symm⟩

/-! ## `RST`, `CLR` and `CFGW` -/

/-- Settles O26: the next state is `rearm`, whose elements are read off one by one. -/
theorem clrRearmsKeepingConfig : Obligations.ClrRearmsKeepingConfig := by
  refine ⟨fun s p hrst hclr => reduce_of_clr hrst hclr s, fun s => ?_⟩
  refine ⟨s.rearm, rfl, rfl, rfl, rfl, fun i => ?_, fun k => ?_, rfl, rfl, rfl, rfl, rfl⟩
  · simp [State.rearm_hbuf]
  · simp [State.rearm_abuf]

/-- Settles O25: the event is `RST`, before the first reset too, and there is no configuration write under it. -/
theorem resetWinsOverEverything : Obligations.ResetWinsOverEverything := by
  intro s p hrst
  have hexec : exec (reduce s p) s = .next s.toReset := by
    rw [reduce_of_rst hrst]
    rfl
  rw [cycle_eq (.inr hrst) hexec, if_neg (by simp [hrst])]
  rfl

/-- Settles O38: under `rst` the cycle answers the reset state, and without it the write is on top of the event. -/
theorem cfgwWritesPolicyOnly : Obligations.CfgwWritesPolicyOnly := by
  refine ⟨fun _ _ => rfl, fun s t p hrst ht => ?_, fun s t p hseen hrst hwe ht => ?_⟩
  · rw [resetWinsOverEverything s p hrst] at ht
    cases ht
    rfl
  · rw [cycle_of_configWrite hseen ht hrst hwe]
    rfl

/-! ## Terminal states -/

/-- In a terminal state every event but `RST` and `CLR` changes nothing (R159, R163, R169, R170). -/
theorem exec_reduce_of_terminal {s : State} {p : Pins} (hst : s.terminal) (hrst : p.rst = false)
    (hclr : p.clr = false) : exec (reduce s p) s = .next s := by
  obtain ⟨heof, hioerr, htimeout⟩ := terminatorsIgnoredAfterTheEnd s hst
  rw [reduce_of_not_rst_clr hrst hclr]
  split_ifs
  · exact htimeout
  · exact hioerr
  · exact exec_byte_terminal p.inData hst
  · exact heof
  · rfl

/-- Settles O39: what is left of such a cycle is the configuration write. -/
theorem terminalStatesStay : Obligations.TerminalStatesStay := by
  intro s p hseen hst hrst hclr
  rw [cycle_eq (.inl hseen) (exec_reduce_of_terminal hst hrst hclr)]
  simp only [hrst, and_true]

/-! ## Totality -/

theorem State.SameBytes.resetSeen {s t : State} (h : s.SameBytes t) : t.resetSeen = s.resetSeen := by
  rw [h]

/-- `BYTE` keeps the model's flag in every state, those that R40 rules out among them. -/
theorem resetSeen_exec_byte {s t : State} {b : Byte} (h : exec (.byte b) s = .next t) :
    t.resetSeen = s.resetSeen := by
  cases hst : s.st with
  | awaitHdr =>
    rw [exec_byte_awaitHdr b hst] at h
    rcases takeHeaderByte_cases b s with ⟨-, hr⟩ | ⟨-, hr⟩
    · cases hr.symm.trans h
      rfl
    · rw [exec_decodeHeaderWord (s := s.storeHeaderByte b) _ hst] at hr
      cases hr.symm.trans h
      exact (sameBytes_concludeHeader _ _).resetSeen
  | awaitAddr => exact (sameBytes_byte_awaitAddr hst h).resetSeen
  | done =>
    cases (exec_byte_terminal b (.inl hst)).symm.trans h
    rfl
  | rejected =>
    cases (exec_byte_terminal b (.inr hst)).symm.trans h
    rfl

/-- No event clears the model's flag: `RST` sets it, and the others keep it (log entry 3). -/
theorem resetSeen_exec_reduce {s t : State} {p : Pins} (hseen : s.resetSeen = true)
    (h : exec (reduce s p) s = .next t) : t.resetSeen = true := by
  rcases reduce_cases s p with hrst | hclr | htimeout | hioerr | hbyte | heof | hnone
  · rw [hrst] at h
    cases h
    rfl
  · rw [hclr] at h
    cases h
    exact hseen
  · rw [htimeout] at h
    exact (sameBytes_endRun h).resetSeen.trans hseen
  · rw [hioerr] at h
    exact (sameBytes_endRun h).resetSeen.trans hseen
  · rw [hbyte] at h
    exact (resetSeen_exec_byte h).trans hseen
  · rw [heof] at h
    exact (sameBytes_endRun h).resetSeen.trans hseen
  · rw [hnone] at h
    cases h
    exact hseen

/-- Settles O48: every event answers a next state, and so does the cycle with its configuration write. -/
theorem stepIsTotalAfterReset : Obligations.StepIsTotalAfterReset := by
  intro s hseen
  obtain ⟨u, hu⟩ := exec_next (reduce s.popInput s.nextPins) s.popInput
  have hcycle := cycle_eq (s := s.popInput) (.inl hseen) hu
  have hkept : u.resetSeen = true := resetSeen_exec_reduce (s := s.popInput) hseen hu
  exact ⟨_, hcycle, hkept⟩

end Sys2Proof.Machine
end

section
/-! PROOFS. `BYTE` in the waiting states (R160 to R162), byte by byte: what is stored, what is counted, and what FHD and
ABD then decide. -/

namespace Sys2Proof.Machine

/-! ## AWAIT_HDR -/

/-- Settles O28: below the sixteenth byte the next state is the store's, and the count does not wrap. -/
theorem headerByteStored : Obligations.HeaderByteStored := by
  intro s b hst hlt
  refine ⟨s.storeHeaderByte b, exec_byte_of_hcnt_lt b hst hlt, rfl, ?_,
    fun i => storeHeaderByte_getElem b s i.val i.isLt⟩
  rw [State.storeHeaderByte_hcnt]
  bv_omega

/-- An accepted header of length 0 is rejected with error 7: FHD lets no family pass that ABD does not know (R161). -/
theorem concludeHeader_of_length_zero {h : HeaderBuf} {hd : Header} (hok : decodeHeader h = .ok hd)
    (hzero : hd.addressLength = 0#16) (s : State) :
    s.concludeHeader (.ok hd) = s.raise .truncatedAddressBlock false := by
  rcases decodeHeader_cases h with ⟨e, herror, -⟩ | ⟨hd', hok', -, -, -, hfam⟩
  · cases herror.symm.trans hok
  · cases hok'.symm.trans hok
    rcases acceptHeader_cases hd.family hd.addressLength s with ⟨hpos, -⟩ | ⟨-, haccept⟩
    · exact absurd hzero hpos
    · rw [State.concludeHeader_ok, haccept, if_pos hfam]

/-- An accepted header with a block to follow awaits that block (R160). -/
theorem concludeHeader_of_length_ne_zero {hd : Header} (hpos : hd.addressLength ≠ 0#16) (s : State) :
    s.concludeHeader (.ok hd) = { s with st := .awaitAddr } := by
  rcases acceptHeader_cases hd.family hd.addressLength s with ⟨-, haccept⟩ | ⟨hzero, -⟩
  · rw [State.concludeHeader_ok, haccept]
  · exact absurd hzero hpos

/-- The word of sixteen bytes latched is those bytes latched (R71, R111). -/
theorem latchHeader_headerWord (h : HeaderBuf) (s : State) :
    s.latchHeader (headerWord h) = { s with hbuf := h, hcnt := 16#5 } := by
  rw [State.latchHeader, headerBytes_headerWord]

/-- Settles O29: the store latches the buffer with the byte, and FHD's answer on it is concluded. -/
theorem headerCompletingBeat : Obligations.HeaderCompletingBeat := by
  rintro s b h hst hlast rfl
  rw [exec_byte_of_hcnt_eq b hst (by rw [hlast]; rfl), storeHeaderByte_eq_latchHeader b hlast,
    latchHeader_headerWord]
  cases hdecode : decodeHeader (s.hbuf.set 15 b) with
  | error e => rfl
  | ok hd =>
    dsimp only
    by_cases hzero : hd.addressLength = 0#16
    · rw [concludeHeader_of_length_zero hdecode hzero, if_pos hzero]
      rfl
    · rw [concludeHeader_of_length_ne_zero hzero, if_neg hzero]

/-- An accepted header of length 0 is the rejection of a header with error 7, for both families (R161). -/
theorem acceptHeader_zero {f : Nibble} (hf : f = 1#4 ∨ f = 2#4) :
    State.acceptHeader f 0#16 = State.raise .truncatedAddressBlock false := by
  funext s
  rcases acceptHeader_cases f 0#16 s with ⟨hpos, -⟩ | ⟨-, haccept⟩
  · exact absurd rfl hpos
  · rw [haccept, if_pos hf]

/-- The beat of an accepted header of length 0, with the bytes that it leaves in `hbuf`. -/
theorem headerBeat_acceptHeader_zero {f : Nibble} (hf : f = 1#4 ∨ f = 2#4) (p : Nibble) {s : State}
    (hst : s.st = .awaitHdr) :
    ∃ t, headerBeat (headerFields Config.signatureWord 2#4 1#4 f p 0#16) (State.acceptHeader f 0#16) s = .next t ∧
      t = { s with st := .rejected, err := 7#4, ioCause := false, hcnt := 16#5, hbuf := t.hbuf } ∧
      headerWord t.hbuf = 0x0D0A0D0A000D0A51524F540A#96 ++ 0x21#8 ++ f ++ p ++ 0#16 := by
  obtain ⟨t, hexec, hframe, hword, -⟩ :=
    headerBeat_raise (headerFields Config.signatureWord 2#4 1#4 f p 0#16) .truncatedAddressBlock hst
  rw [headerFields_eq_append_0x21, signatureWord_eq] at hword
  exact ⟨t, by rw [acceptHeader_zero hf, hexec], hframe, hword⟩

/-- Settles O18: each accepting form is the beat of its family. -/
theorem emptyAddressBlockRejected : Obligations.EmptyAddressBlockRejected := fun _ p hst =>
  ⟨headerBeat_acceptHeader_zero (.inl rfl) p hst, headerBeat_acceptHeader_zero (.inr rfl) p hst⟩

/-! ## AWAIT_ADDR -/

theorem State.SameBytes.acnt {s t : State} (h : s.SameBytes t) : t.acnt = s.acnt := by
  rw [h]

theorem State.SameBytes.abuf {s t : State} (h : s.SameBytes t) : t.abuf = s.abuf := by
  rw [h]

/-- Settles O31: the store counts and holds the byte, and what follows is what `finishAddress` does. -/
theorem addressByteTaken : Obligations.AddressByteTaken := by
  intro s b hst hlt
  have hsame := sameBytes_finishAddress s (s.storeAddressByte b)
  refine ⟨_, exec_byte_awaitAddr b hst, ?_, ?_, fun k => ?_, ?_⟩
  · rw [hsame.acnt, hsame.abuf]
    exact hsame
  · rw [hsame.acnt, storeAddressByte_acnt_toNat b hlt]
  · rw [hsame.abuf]
    exact storeAddressByte_getElem b s k.val k.isLt
  · split_ifs with hmore
    · rw [State.finishAddress, if_pos hmore]
      exact ⟨hst, rfl, rfl⟩
    · have hlast : s.finishAddress (s.storeAddressByte b) = (s.storeAddressByte b).concludeAddress
          (decodeAddressBlockHw s.fam s.alen (s.storeAddressByte b).abuf) :=
        finishAddress_of_last _ (not_lt.mp hmore)
      rw [hsame.abuf, hlast]
      cases hdecode : decodeAddressBlockHw s.fam s.alen (s.storeAddressByte b).abuf with
      | ok e => exact ⟨rfl, rfl, rfl⟩
      | error e => exact ⟨rfl, rfl, rfl⟩

end Sys2Proof.Machine
end

section
/-! PROOFS. The closed form of the state (R176): what the bytes of a stream, taken in order, make of an armed block. -/

namespace Sys2Proof.Machine

/-! ## The bytes of the header -/

/-- The first sixteen bytes of a stream, with zeros in the places of the bytes that it does not have (R21, R40). -/
def headerPrefix (bytes : List Byte) : HeaderBuf := Vector.ofFn fun i => bytes.getD i.val 0#8

theorem headerPrefix_getElem (bytes : List Byte) {i : Nat} (hi : i < 16) :
    (headerPrefix bytes)[i] = bytes.getD i 0#8 := by
  simp [headerPrefix]

theorem headerPrefix_toList {bytes : List Byte} (hlong : 16 ≤ bytes.length) :
    (headerPrefix bytes).toList = bytes.take 16 := by
  refine List.ext_getElem (by simpa using hlong) fun i hi _ => ?_
  have hlt : i < 16 := by simpa using hi
  rw [Vector.getElem_toList, headerPrefix_getElem _ hlt, List.getElem_take, List.getD_eq_getElem _ _ (by omega)]

/-- Bytes beyond the sixteenth are none of the header's. -/
theorem headerPrefix_append {bytes : List Byte} (hlong : 16 ≤ bytes.length) (more : List Byte) :
    headerPrefix (bytes ++ more) = headerPrefix bytes := by
  ext1 i hi
  rw [headerPrefix_getElem _ hi, headerPrefix_getElem _ hi, List.getD_append _ _ _ _ (by omega)]

/-- The byte that comes next stands in the place that the bytes before it leave free. -/
theorem headerPrefix_concat_getElem {bytes : List Byte} (hshort : bytes.length < 16) (b : Byte) :
    (headerPrefix (bytes ++ [b]))[bytes.length] = b := by
  simp [headerPrefix_getElem _ hshort]

theorem headerOfList_toList (h : HeaderBuf) : headerOfList h.toList = some h := by
  have hbytes : h = #v[h[0], h[1], h[2], h[3], h[4], h[5], h[6], h[7], h[8], h[9], h[10], h[11], h[12], h[13], h[14],
      h[15]] := by
    ext1 i hi
    interval_cases i <;> rfl
  rw [hbytes]
  rfl

theorem headerOfList_of_length_lt {bytes : List Byte} (hshort : bytes.length < 16) : headerOfList bytes = none := by
  rw [headerOfList]
  rintro b0 b1 b2 b3 b4 b5 b6 b7 b8 b9 b10 b11 b12 b13 b14 b15 rfl
  simp at hshort

theorem headerOfList_take {bytes : List Byte} (hlong : 16 ≤ bytes.length) :
    headerOfList (bytes.take 16) = some (headerPrefix bytes) := by
  rw [← headerPrefix_toList hlong, headerOfList_toList]

/-- Taking the first `n` bytes looks at no byte after them. -/
theorem withHeaderTaken_congr {h h' : HeaderBuf} {n : Nat} (s : State) (hn : n ≤ 16)
    (hsame : ∀ i (hi : i < n), h[i] = h'[i]) : s.withHeaderTaken h n = s.withHeaderTaken h' n := by
  have hbuf : (s.withHeaderTaken h n).hbuf = (s.withHeaderTaken h' n).hbuf := by
    ext1 i hi
    rw [withHeaderTaken_getElem _ _ _ hi, withHeaderTaken_getElem _ _ _ hi]
    split_ifs with hin
    · exact hsame i hin
    · rfl
  rw [withHeaderTaken_eq_of_hbuf hbuf]
  rfl

/-- With fewer than sixteen bytes taken, the byte that comes next is not looked at. -/
theorem withHeaderTaken_headerPrefix_concat {bytes : List Byte} (hshort : bytes.length < 16) (b : Byte) (s : State) :
    s.withHeaderTaken (headerPrefix bytes) bytes.length =
      s.withHeaderTaken (headerPrefix (bytes ++ [b])) bytes.length := by
  refine withHeaderTaken_congr s hshort.le fun i hi => ?_
  rw [headerPrefix_getElem _ (by omega), headerPrefix_getElem _ (by omega), List.getD_append _ _ _ _ hi]

/-! ## The closed form of the state -/

/-- The state behind a complete header: the header latched, and FHD's answer on it concluded (R160, R161). -/
def State.afterHeader (h : HeaderBuf) (s : State) : State :=
  (s.latchHeader (headerWord h)).concludeHeader (decodeHeader h)

/-- What the bytes `a` offered behind a header make of the state there: they are taken in AWAIT_ADDR only, up to the
length that the header says, and the last of them runs ABD (R162, R163). -/
def State.afterBlock (a : List Byte) (u : State) : State :=
  if u.st = .awaitAddr then
    if a.length < u.alen.toNat then u.withAddressTaken a a.length
    else (u.withAddressTaken (a.take u.alen.toNat) u.alen.toNat).concludeAddress
      (decodeAddressBlock u.fam (a.take u.alen.toNat))
  else u

/-- What the bytes of a stream, offered in order, make of an armed state (R176). -/
def State.afterBytes (bytes : List Byte) (s : State) : State :=
  if bytes.length < 16 then s.withHeaderTaken (headerPrefix bytes) bytes.length
  else (s.afterHeader (headerPrefix bytes)).afterBlock (bytes.drop 16)

theorem afterBytes_of_length_lt {bytes : List Byte} (hshort : bytes.length < 16) (s : State) :
    s.afterBytes bytes = s.withHeaderTaken (headerPrefix bytes) bytes.length := if_pos hshort

theorem afterBytes_of_le_length {bytes : List Byte} (hlong : 16 ≤ bytes.length) (s : State) :
    s.afterBytes bytes = (s.afterHeader (headerPrefix bytes)).afterBlock (bytes.drop 16) := if_neg (by omega)

theorem afterBytes_nil {s : State} (harmed : s.armed) : s.afterBytes [] = s :=
  (afterBytes_of_length_lt (by decide) s).trans (withHeaderTaken_zero _ harmed)

/-- What FHD's answer makes of the state behind the header. -/
theorem afterHeader_cases (h : HeaderBuf) (s : State) :
    (∃ e, decodeHeader h = .error e ∧ s.afterHeader h = (s.latchHeader (headerWord h)).raise e false) ∨
      (∃ hd, decodeHeader h = .ok hd ∧ hd.addressLength = 0#16 ∧
        s.afterHeader h = (s.latchHeader (headerWord h)).raise .truncatedAddressBlock false) ∨
      ∃ hd, decodeHeader h = .ok hd ∧ hd.addressLength ≠ 0#16 ∧
        s.afterHeader h = { s.latchHeader (headerWord h) with st := .awaitAddr } := by
  cases hdecode : decodeHeader h with
  | error e => exact .inl ⟨e, rfl, by rw [State.afterHeader, hdecode, State.concludeHeader_error]⟩
  | ok hd =>
    by_cases hzero : hd.addressLength = 0#16
    · exact .inr (.inl ⟨hd, rfl, hzero, by
        rw [State.afterHeader, hdecode, concludeHeader_of_length_zero hdecode hzero]⟩)
    · exact .inr (.inr ⟨hd, rfl, hzero, by
        rw [State.afterHeader, hdecode, concludeHeader_of_length_ne_zero hzero]⟩)

theorem afterBlock_of_terminal {u : State} (hst : u.terminal) (a : List Byte) : u.afterBlock a = u :=
  if_neg (by rcases hst with hst | hst <;> simp [hst])

theorem afterBlock_of_length_lt {u : State} {a : List Byte} (hst : u.st = .awaitAddr)
    (hshort : a.length < u.alen.toNat) : u.afterBlock a = u.withAddressTaken a a.length := by
  rw [State.afterBlock, if_pos hst, if_pos hshort]

theorem afterBlock_of_le_length {u : State} {a : List Byte} (hst : u.st = .awaitAddr)
    (hlong : u.alen.toNat ≤ a.length) :
    u.afterBlock a = (u.withAddressTaken (a.take u.alen.toNat) u.alen.toNat).concludeAddress
      (decodeAddressBlock u.fam (a.take u.alen.toNat)) := by
  rw [State.afterBlock, if_pos hst, if_neg hlong.not_gt]

theorem concludeAddress_terminal (answer : Except DecodeError Endpoints) (s : State) :
    (s.concludeAddress answer).terminal := by
  cases answer with
  | ok e => exact .inl rfl
  | error e => exact .inr rfl

/-- Behind a header the run is over, or it awaits a block of one byte at least, with no byte of it taken. -/
theorem afterHeader_terminal_or (h : HeaderBuf) {s : State} (harmed : s.armed) :
    (s.afterHeader h).terminal ∨ (s.afterHeader h).st = .awaitAddr ∧ 0 < (s.afterHeader h).alen.toNat ∧
      (s.afterHeader h).acnt = 0#16 ∧ (s.afterHeader h).abuf = Vector.replicate 36 0#8 := by
  rcases afterHeader_cases h s with ⟨e, -, hu⟩ | ⟨hd, -, -, hu⟩ | ⟨hd, hok, hpos, hu⟩ <;> rw [hu]
  · exact .inl (.inr rfl)
  · exact .inl (.inr rfl)
  · have halen : hd.addressLength = be16 h[14] h[15] := congrArg Header.addressLength (eq_of_decodeHeader_eq_ok hok)
    refine .inr ⟨rfl, ?_, (congrArg State.acnt harmed).symm, (congrArg State.abuf harmed).symm⟩
    simp only [State.alen, State.latchHeader_hbuf, headerBytes_headerWord, ← halen]
    bv_omega

/-- As long as no byte follows the header, the state behind it stays as it is. -/
theorem afterBlock_nil_afterHeader (h : HeaderBuf) {s : State} (harmed : s.armed) :
    (s.afterHeader h).afterBlock [] = s.afterHeader h := by
  rcases afterHeader_terminal_or h harmed with hst | ⟨hst, hpos, hacnt, hzero⟩
  · exact afterBlock_of_terminal hst []
  · rw [afterBlock_of_length_lt hst (by simpa using hpos)]
    exact withAddressTaken_zero [] hacnt hzero

/-! ## One byte more -/

/-- With the bytes before it taken, the byte that comes next is not looked at. -/
theorem withAddressTaken_concat (a : List Byte) (b : Byte) (u : State) :
    u.withAddressTaken a a.length = u.withAddressTaken (a ++ [b]) a.length := by
  have hbuf : (u.withAddressTaken a a.length).abuf = (u.withAddressTaken (a ++ [b]) a.length).abuf := by
    ext1 k hk
    rw [withAddressTaken_getElem _ _ _ hk, withAddressTaken_getElem _ _ _ hk]
    split_ifs with hin
    · rw [List.getD_append _ _ _ _ hin]
    · rfl
  rw [withAddressTaken_eq_of_abuf hbuf]
  rfl

/-- A byte offered behind the header, in AWAIT_ADDR or in a terminal state, is one byte more there. -/
theorem exec_byte_afterBlock {u : State} (a : List Byte) (b : Byte) (hst : u.terminal ∨ u.st = .awaitAddr) :
    exec (.byte b) (u.afterBlock a) = .next (u.afterBlock (a ++ [b])) := by
  rcases hst with hst | hst
  · rw [afterBlock_of_terminal hst, afterBlock_of_terminal hst, exec_byte_terminal b hst]
  have hnext : (a ++ [b])[a.length]'(by simp) = b := by simp
  have hlength : (a ++ [b]).length = a.length + 1 := by simp
  have hbefore := withAddressTaken_concat a b u
  rcases Nat.lt_trichotomy (a.length + 1) u.alen.toNat with hmore | hlast | hover
  · have hbyte := exec_byte_withAddressTaken (a := a ++ [b]) (n := a.length) (by simp) hst hmore
    rw [hnext] at hbyte
    rw [afterBlock_of_length_lt hst (by omega), afterBlock_of_length_lt hst (by omega), hbefore, hbyte, hlength]
  · have hbyte := exec_byte_last_withAddressTaken (a := a ++ [b]) (n := a.length) hlength hst (by omega)
    rw [hnext] at hbyte
    rw [afterBlock_of_length_lt hst (by omega), afterBlock_of_le_length hst (by omega), hbefore, hbyte,
      List.take_of_length_le (by omega), hlength, hlast]
  · rw [afterBlock_of_le_length hst (by omega), afterBlock_of_le_length hst (by omega),
      List.take_append_of_le_length (by omega), exec_byte_terminal b (concludeAddress_terminal _ _)]

/-- The sixteenth byte brings the state behind the header. -/
theorem exec_byte_sixteenth (h : HeaderBuf) {s : State} (hst : s.st = .awaitHdr) :
    exec (.byte h[15]) (s.withHeaderTaken h 15) = .next (s.afterHeader h) := by
  have hlast := exec_byte_last_eq_exec_form (headerWord h) hst
  rw [exec_decodeHeaderWord _ hst] at hlast
  simp only [headerBytes_headerWord] at hlast
  exact hlast

/-- A byte offered after others is one byte more of the stream (R176). -/
theorem exec_byte_afterBytes {s : State} (harmed : s.armed) (bytes : List Byte) (b : Byte) :
    exec (.byte b) (s.afterBytes bytes) = .next (s.afterBytes (bytes ++ [b])) := by
  have hst : s.st = .awaitHdr := st_of_armed harmed
  have hlength : (bytes ++ [b]).length = bytes.length + 1 := by simp
  rcases Nat.lt_or_ge bytes.length 16 with hshort | hlong
  · have hnext := headerPrefix_concat_getElem hshort b
    rw [afterBytes_of_length_lt hshort, withHeaderTaken_headerPrefix_concat hshort b]
    rcases Nat.lt_or_eq_of_le (Nat.le_of_lt_succ hshort) with hmore | hlast
    · have hbyte := exec_byte_withHeaderTaken (headerPrefix (bytes ++ [b])) hmore hst
      rw [hnext] at hbyte
      rw [hbyte, afterBytes_of_length_lt (by omega), hlength]
    · have hbyte := exec_byte_sixteenth (headerPrefix (bytes ++ [b])) hst
      simp only [hlast] at hnext
      rw [hnext] at hbyte
      rw [hlast, hbyte, afterBytes_of_le_length (by omega), List.drop_of_length_le (by omega),
        afterBlock_nil_afterHeader _ harmed]
  · rw [afterBytes_of_le_length hlong, afterBytes_of_le_length (by omega), headerPrefix_append hlong,
      List.drop_append_of_le_length hlong]
    exact exec_byte_afterBlock _ b ((afterHeader_terminal_or _ harmed).imp_right And.left)

/-! ## What the bytes of the stream have no part in -/

/-- The state with other values in the fields that no byte of the stream writes and none reads (R29, R40). -/
def State.withUnread (c : BitVec 2) (seen : Bool) (l : List Pins) (s : State) : State :=
  { s with cfg := c, resetSeen := seen, inputs := l }

section Unread

variable (c : BitVec 2) (seen : Bool) (l : List Pins) (s : State)

theorem acceptHeader_withUnread (f : Nibble) (len : Half) :
    (s.withUnread c seen l).acceptHeader f len = (s.acceptHeader f len).withUnread c seen l := by
  simp only [State.acceptHeader, decodeAddressBlock_nil]
  split_ifs <;> rfl

theorem afterHeader_withUnread (h : HeaderBuf) :
    (s.withUnread c seen l).afterHeader h = (s.afterHeader h).withUnread c seen l := by
  rw [State.afterHeader, State.afterHeader]
  cases decodeHeader h with
  | error e => rfl
  | ok hd => exact acceptHeader_withUnread c seen l (s.latchHeader (headerWord h)) hd.family hd.addressLength

theorem concludeAddress_withUnread (answer : Except DecodeError Endpoints) :
    (s.withUnread c seen l).concludeAddress answer = (s.concludeAddress answer).withUnread c seen l := by
  cases answer <;> rfl

theorem afterBlock_withUnread (a : List Byte) :
    (s.withUnread c seen l).afterBlock a = (s.afterBlock a).withUnread c seen l := by
  by_cases hst : s.st = .awaitAddr
  · rcases Nat.lt_or_ge a.length s.alen.toNat with hshort | hlong
    · rw [afterBlock_of_length_lt hst hshort, afterBlock_of_length_lt (u := s.withUnread c seen l) hst hshort]
      rfl
    · rw [afterBlock_of_le_length hst hlong, afterBlock_of_le_length (u := s.withUnread c seen l) hst hlong]
      exact concludeAddress_withUnread c seen l (s.withAddressTaken (a.take s.alen.toNat) s.alen.toNat) _
  · rw [State.afterBlock, State.afterBlock, if_neg hst]
    exact if_neg hst

theorem afterBytes_withUnread (bytes : List Byte) :
    (s.withUnread c seen l).afterBytes bytes = (s.afterBytes bytes).withUnread c seen l := by
  rcases Nat.lt_or_ge bytes.length 16 with hshort | hlong
  · rw [afterBytes_of_length_lt hshort, afterBytes_of_length_lt hshort]
    rfl
  · rw [afterBytes_of_le_length hlong, afterBytes_of_le_length hlong, afterHeader_withUnread, afterBlock_withUnread]

end Unread

/-- The bytes of the stream leave those fields as they are. -/
theorem afterBytes_frame (bytes : List Byte) (s : State) :
    s.afterBytes bytes = (s.afterBytes bytes).withUnread s.cfg s.resetSeen s.inputs :=
  afterBytes_withUnread s.cfg s.resetSeen s.inputs s bytes

theorem afterBytes_cfg (bytes : List Byte) (s : State) : (s.afterBytes bytes).cfg = s.cfg :=
  (congrArg State.cfg (afterBytes_frame bytes s)).trans rfl

theorem afterBytes_resetSeen (bytes : List Byte) (s : State) : (s.afterBytes bytes).resetSeen = s.resetSeen :=
  (congrArg State.resetSeen (afterBytes_frame bytes s)).trans rfl

theorem afterBytes_inputs (bytes : List Byte) (s : State) : (s.afterBytes bytes).inputs = s.inputs :=
  (congrArg State.inputs (afterBytes_frame bytes s)).trans rfl

end Sys2Proof.Machine
end

section
/-! PROOFS. A whole run in closed form (R176): the samples of a stream source that stalls at will, what the state after
them reports, and what a terminator then makes of it. -/

namespace Sys2Proof.Machine

/-! ## The samples of a stream source that stalls -/

/-- An armed state stays armed whatever is offered to it. -/
theorem armed_inputs {s : State} (harmed : s.armed) (l : List Pins) : State.armed { s with inputs := l } :=
  congrArg (fun u : State => { u with inputs := l }) harmed

/-- A byte offered alone is `BYTE`, in a terminal state too, where neither the cycle nor `BYTE` does anything (R158,
R163). -/
theorem cycle_scriptByte {s : State} (hseen : s.resetSeen = true) (b : Byte) :
    cycle s (.scriptByte b) = exec (.byte b) s := by
  rcases waiting_or_terminal s with hst | hst
  · obtain ⟨t, ht⟩ := exec_next (.byte b) s
    rw [ht]
    exact cycle_of_noConfigWrite hseen (by rw [reduce_scriptByte b hst, ht]) (.inr rfl)
  · rw [exec_byte_terminal b hst]
    exact cycle_of_noConfigWrite hseen (exec_reduce_of_terminal hst rfl rfl) (.inr rfl)

/-- A step on an offer adds the bytes of the offer to the stream taken: one, or none in an idle cycle (R53). -/
theorem step_offer {s : State} (harmed : s.armed) (hseen : s.resetSeen = true) (bytes : List Byte)
    {offer : Option Byte} {rest : List Pins} (hin : s.inputs = offerPins offer :: rest) :
    step (s.afterBytes bytes) = .next (State.afterBytes (bytes ++ offer.toList) { s with inputs := rest }) := by
  have hpop : { s.afterBytes bytes with inputs := rest } = State.afterBytes bytes { s with inputs := rest } := by
    have h := afterBytes_withUnread s.cfg s.resetSeen rest s bytes
    rw [afterBytes_frame bytes s]
    exact h.symm
  rw [step_of_inputs_cons ((afterBytes_inputs bytes s).trans hin), hpop]
  have hseen' : (State.afterBytes bytes { s with inputs := rest }).resetSeen = true := by
    rw [afterBytes_resetSeen]
    exact hseen
  cases offer with
  | none => rw [offerPins, cycle_idle hseen', Option.toList_none, List.append_nil]
  | some b => rw [offerPins, cycle_scriptByte hseen', exec_byte_afterBytes (armed_inputs harmed rest),
      Option.toList_some]

/-- A run over offers takes their bytes, whatever idle cycles stand between them (R176). -/
theorem run_offers {s : State} (harmed : s.armed) (hseen : s.resetSeen = true) (offers : List (Option Byte))
    (rest : List Pins) (hin : s.inputs = offers.map offerPins ++ rest) (bytes : List Byte) :
    Host.Core.run Sys2Proof.core offers.length (s.afterBytes bytes) =
      .next (State.afterBytes (bytes ++ offers.filterMap id) { s with inputs := rest }) := by
  induction offers generalizing s bytes with
  | nil =>
    rw [List.filterMap_nil, List.append_nil, ← show s.inputs = rest from hin]
    rfl
  | cons offer offers ih =>
    have hstep := step_offer harmed hseen bytes hin
    have hbytes : (offer :: offers).filterMap id = offer.toList ++ offers.filterMap id := by
      cases offer <;> rfl
    rw [List.length_cons, run_succ_of_step _ hstep, hbytes, ← List.append_assoc]
    exact ih (armed_inputs harmed (offers.map offerPins ++ rest)) hseen rfl _

/-! ## What the state reports -/

theorem result_of_not_done {s : State} (hst : s.st ≠ .done) : s.result = none := if_neg hst

/-- Fewer than sixteen bytes leave the block in AWAIT_HDR, with all of them counted. -/
theorem runOutcome_of_length_lt {s : State} {bytes : List Byte} (harmed : s.armed) (hshort : bytes.length < 16) :
    (s.afterBytes bytes).runOutcome = outcome bytes none := by
  have hacnt : s.acnt = 0#16 := (congrArg State.acnt harmed).symm
  have herr : s.err = 0#4 := (congrArg State.err harmed).symm
  have hio : s.ioCause = false := (congrArg State.ioCause harmed).symm
  have hst : s.st = .awaitHdr := st_of_armed harmed
  have hpos : (s.withHeaderTaken (headerPrefix bytes) bytes.length).pos.toNat = bytes.length := by
    rw [pos_toNat, withHeaderTaken_hcnt_toNat _ hshort.le]
    simp [State.withHeaderTaken, hacnt]
  have hnone : headerOfList (bytes.take 16) = none := by
    rw [List.take_of_length_le hshort.le, headerOfList_of_length_lt hshort]
  rw [afterBytes_of_length_lt hshort, outcome, hnone, State.runOutcome, hpos, result_of_not_done]
  · simp [State.withHeaderTaken, shortOutcome, hst, herr, hio]
  · simp [State.withHeaderTaken, hst]

theorem runOutcome_raise (e : DecodeError) (io : Bool) (s : State) :
    (s.raise e io).runOutcome = ⟨.rejected, e.code, io, s.pos.toNat, none⟩ := by
  rw [State.runOutcome, result_of_not_done (by simp)]
  rfl

/-- The state behind an accepted header with a block to follow has the header's own length and family (R34). -/
theorem afterHeader_of_block {h : HeaderBuf} {hd : Header} (hok : decodeHeader h = .ok hd)
    (hpos : hd.addressLength ≠ 0#16) (s : State) :
    s.afterHeader h = s.behindHeader (headerWord h) s.inputs ∧ (s.afterHeader h).alen = hd.addressLength ∧
      (s.afterHeader h).fam = hd.family := by
  have hu : s.afterHeader h = s.behindHeader (headerWord h) s.inputs := by
    rw [State.afterHeader, hok, concludeHeader_of_length_ne_zero hpos]
    rfl
  have hfields := eq_of_decodeHeader_eq_ok hok
  have hbuf : (s.behindHeader (headerWord h) s.inputs).hbuf = h := headerBytes_headerWord h
  rw [hu, State.alen, State.fam, hbuf]
  exact ⟨rfl, (congrArg Header.addressLength hfields).symm, (congrArg Header.family hfields).symm⟩

/-- Behind an accepted header, the bytes of the block leave the block waiting until the last of them (R162). -/
theorem runOutcome_of_block_lt {s : State} {h : HeaderBuf} {hd : Header} {a : List Byte} (harmed : s.armed)
    (hok : decodeHeader h = .ok hd) (hshort : a.length < hd.addressLength.toNat) :
    ((s.afterHeader h).afterBlock a).runOutcome = ⟨.awaitAddr, 0#4, false, 16 + a.length, none⟩ := by
  have hpos : hd.addressLength ≠ 0#16 := by rintro hzero; simp [hzero] at hshort
  obtain ⟨hu, halen, -⟩ := afterHeader_of_block hok hpos s
  have hcounted : a.length ≤ 65535 := by have := hd.addressLength.isLt; omega
  have herr : s.err = 0#4 := (congrArg State.err harmed).symm
  have hio : s.ioCause = false := (congrArg State.ioCause harmed).symm
  rw [afterBlock_of_length_lt (by rw [hu]; rfl) (halen ▸ hshort), hu, State.runOutcome, pos_toNat,
    withAddressTaken_acnt_toNat a hcounted, result_of_not_done (by simp [State.withAddressTaken, State.behindHeader])]
  simp [State.withAddressTaken, State.behindHeader, herr, hio]

/-- With the whole block taken, the state is the one that ABD's answer on the block concludes, and the bytes after it are
not taken (R162, R163). -/
theorem afterBlock_of_whole_block {s : State} {h : HeaderBuf} {hd : Header} {a : List Byte}
    (hok : decodeHeader h = .ok hd) (hpos : hd.addressLength ≠ 0#16) (hlong : hd.addressLength.toNat ≤ a.length) :
    (s.afterHeader h).afterBlock a =
      ((s.behindHeader (headerWord h) s.inputs).withAddressTaken (a.take hd.addressLength.toNat)
        hd.addressLength.toNat).concludeAddress
          (decodeAddressBlock hd.family (a.take hd.addressLength.toNat)) := by
  obtain ⟨hu, halen, hfam⟩ := afterHeader_of_block hok hpos s
  rw [afterBlock_of_le_length (by rw [hu]; rfl) (halen ▸ hlong), halen, hfam, hu]

theorem runOutcome_of_block_error {s : State} {h : HeaderBuf} {hd : Header} {a : List Byte} {e : DecodeError}
    (hok : decodeHeader h = .ok hd) (hpos : hd.addressLength ≠ 0#16) (hlong : hd.addressLength.toNat ≤ a.length)
    (herror : decodeAddressBlock hd.family (a.take hd.addressLength.toNat) = .error e) :
    ((s.afterHeader h).afterBlock a).runOutcome =
      ⟨.rejected, e.code, false, 16 + hd.addressLength.toNat, none⟩ := by
  have hcounted : hd.addressLength.toNat ≤ 65535 := by have := hd.addressLength.isLt; omega
  rw [afterBlock_of_whole_block hok hpos hlong, herror]
  refine (runOutcome_raise e false _).trans ?_
  rw [pos_toNat, withAddressTaken_acnt_toNat _ hcounted]
  rfl

theorem runOutcome_of_block_ok {s : State} {h : HeaderBuf} {hd : Header} {a : List Byte} {e : Endpoints}
    (harmed : s.armed) (hok : decodeHeader h = .ok hd) (hpos : hd.addressLength ≠ 0#16)
    (hlong : hd.addressLength.toNat ≤ a.length)
    (haddr : decodeAddressBlock hd.family (a.take hd.addressLength.toNat) = .ok e) :
    ((s.afterHeader h).afterBlock a).runOutcome =
      ⟨.done, 0#4, false, 16 + hd.addressLength.toNat, some (hd, e)⟩ := by
  have hcounted : hd.addressLength.toNat ≤ 65535 := by have := hd.addressLength.isLt; omega
  have herr : s.err = 0#4 := (congrArg State.err harmed).symm
  have hio : s.ioCause = false := (congrArg State.ioCause harmed).symm
  have hlen : hd.addressLength.toNat = (a.take hd.addressLength.toNat).length := by simp [hlong]
  have hacnt := withAddressTaken_acnt_toNat (a.take hd.addressLength.toNat) hcounted
    (s.behindHeader (headerWord h) s.inputs)
  have hheld := holds_withAddressTaken (a.take hd.addressLength.toNat) (s.behindHeader (headerWord h) s.inputs)
  rw [afterBlock_of_whole_block hok hpos hlong, haddr]
  rw [← hlen] at hheld
  obtain ⟨hposition, hresult, -⟩ := done_reports
    (u := State.concludeAddress (.ok e) ((s.behindHeader (headerWord h) s.inputs).withAddressTaken
      (a.take hd.addressLength.toNat) hd.addressLength.toNat))
    rfl rfl rfl (hacnt.trans hlen) hheld ((headerBytes_headerWord h).symm ▸ hok) hlen haddr
  rw [State.runOutcome, hposition, hresult, ← hlen, ← herr, ← hio]
  rfl

/-- What the bytes of a stream make of an armed state is what R176 says of them, with no terminator. -/
theorem runOutcome_afterBytes {s : State} (harmed : s.armed) (bytes : List Byte) :
    (s.afterBytes bytes).runOutcome = outcome bytes none := by
  rcases Nat.lt_or_ge bytes.length 16 with hshort | hlong
  · exact runOutcome_of_length_lt harmed hshort
  have hacnt : s.acnt = 0#16 := (congrArg State.acnt harmed).symm
  have hposition : (s.latchHeader (headerWord (headerPrefix bytes))).pos.toNat = 16 := by
    rw [pos_toNat, State.latchHeader_acnt, hacnt]
    rfl
  rw [afterBytes_of_le_length hlong, outcome, headerOfList_take hlong]
  rcases afterHeader_cases (headerPrefix bytes) s with ⟨e, herror, hu⟩ | ⟨hd, hok, hzero, hu⟩ | ⟨hd, hok, hpos, -⟩
  · rw [hu, afterBlock_of_terminal (.inr rfl), runOutcome_raise, hposition]
    simp only [herror]
  · rw [hu, afterBlock_of_terminal (.inr rfl), runOutcome_raise, hposition]
    simp [hok, hzero]
  · have hsome : hd.addressLength.toNat ≠ 0 := fun h => hpos (BitVec.eq_of_toNat_eq h)
    simp only [hok, if_neg hsome]
    rcases Nat.lt_or_ge (bytes.drop 16).length hd.addressLength.toNat with hmore | hall
    · rw [if_pos hmore, runOutcome_of_block_lt harmed hok hmore, List.length_drop, Nat.add_sub_cancel' hlong]
      rfl
    · rw [if_neg hall.not_gt]
      cases haddr : decodeAddressBlock hd.family ((bytes.drop 16).take hd.addressLength.toNat) with
      | error e => exact runOutcome_of_block_error hok hpos hall haddr
      | ok e => exact runOutcome_of_block_ok harmed hok hpos hall haddr

/-! ## The terminator -/

/-- What a terminator makes of the outcome that the bytes before it have: it ends a waiting run with the kind of the
state it waits in, and is ignored in a terminal one (R164 to R169, R176). -/
def RunOutcome.endedBy (t : Terminator) (r : RunOutcome) : RunOutcome :=
  match r.st with
  | .awaitHdr => shortOutcome .awaitHdr .incompleteHeader r.pos (some t)
  | .awaitAddr => shortOutcome .awaitAddr .incompleteAddressBlock r.pos (some t)
  | .done | .rejected => r

/-- The outcome of a run with a terminator is the terminator's on the outcome without it (R176). -/
theorem outcome_some (bytes : List Byte) (t : Terminator) :
    outcome bytes (some t) = (outcome bytes none).endedBy t := by
  simp only [outcome]
  cases headerOfList (bytes.take Config.hdrLen) with
  | none => rfl
  | some h =>
    dsimp only
    cases decodeHeader h with
    | error e => rfl
    | ok hd =>
      dsimp only
      split_ifs
      · rfl
      · rfl
      · cases decodeAddressBlock hd.family ((bytes.drop Config.hdrLen).take hd.addressLength.toNat) <;> rfl

/-- The outcome that a state reports ends as the terminator's event ends the state (R164 to R169). -/
theorem runOutcome_endRun {eh ea : DecodeError} {io : Bool} {s u : State} {t : Terminator}
    (hhdr : shortOutcome .awaitHdr .incompleteHeader s.pos.toNat (some t) = ⟨.rejected, eh.code, io, s.pos.toNat, none⟩)
    (haddr : shortOutcome .awaitAddr .incompleteAddressBlock s.pos.toNat (some t) =
      ⟨.rejected, ea.code, io, s.pos.toNat, none⟩)
    (h : endRun eh ea io s = .next u) : u.runOutcome = s.runOutcome.endedBy t := by
  rcases endRun_cases eh ea io s with ⟨hst, hr⟩ | ⟨hst, hr⟩ | ⟨hst, hr⟩ <;> cases hr.symm.trans h
  · rw [runOutcome_raise, RunOutcome.endedBy, State.runOutcome, hst, hhdr]
  · rw [runOutcome_raise, RunOutcome.endedBy, State.runOutcome, hst, haddr]
  · rcases hst with hst | hst <;> rw [RunOutcome.endedBy, State.runOutcome, hst]

theorem State.SameBytes.cfg {s t : State} (h : s.SameBytes t) : t.cfg = s.cfg := by
  rw [h]

/-- The event that a terminator is (R176). -/
def Terminator.event : Terminator → Instr
  | .eof => .eof
  | .ioerr => .ioerr
  | .timeout => .timeout

/-- A terminator's sample reduces to it in every state (R77, R158). -/
theorem reduce_terminator (t : Terminator) (s : State) : reduce s t.pins = t.event := by
  rw [reduceFollowsPriority, reduceByPriority]
  cases t <;> rfl

/-- A terminator's event ends what the state reports as R176 says, and keeps `CFG`. -/
theorem runOutcome_exec_terminator {t : Terminator} {s u : State} (h : exec t.event s = .next u) :
    u.runOutcome = s.runOutcome.endedBy t ∧ u.cfg = s.cfg := by
  cases t with
  | eof => exact ⟨runOutcome_endRun rfl rfl h, (sameBytes_endRun h).cfg⟩
  | ioerr => exact ⟨runOutcome_endRun rfl rfl h, (sameBytes_endRun h).cfg⟩
  | timeout => exact ⟨runOutcome_endRun rfl rfl h, (sameBytes_endRun h).cfg⟩

/-- A step on a terminator's sample ends the run as R176 says, and keeps `CFG`. -/
theorem step_terminator {s : State} (hseen : s.resetSeen = true) {t : Terminator} (hin : s.inputs = [t.pins]) :
    ∃ u, step s = .next u ∧ u.runOutcome = s.runOutcome.endedBy t ∧ u.cfg = s.cfg := by
  obtain ⟨u, hu⟩ := exec_next t.event { s with inputs := [] }
  have hquiet : t.pins.cfgWe = false := by cases t <;> rfl
  have hreport := runOutcome_exec_terminator hu
  rw [step_of_inputs_cons hin]
  exact ⟨u, cycle_of_noConfigWrite hseen (by rw [reduce_terminator, hu]) (.inr hquiet), hreport⟩

/-- Settles O57: the bytes of the offers, then the terminator if there is one. -/
theorem runHasClosedForm : Obligations.RunHasClosedForm := by
  intro s offers t harmed hseen hin
  have hbytes := run_offers harmed hseen offers _ hin []
  rw [afterBytes_nil harmed, List.nil_append] at hbytes
  have hreport := runOutcome_afterBytes (armed_inputs harmed (t.map Terminator.pins).toList) (offers.filterMap id)
  have hlength : s.inputs.length = offers.length + t.toList.length := by
    rw [hin]
    cases t <;> simp [runInputs]
  rw [hlength, run_add_of_run hbytes]
  cases t with
  | none => exact ⟨_, rfl, hreport, afterBytes_cfg _ _⟩
  | some t =>
    obtain ⟨u, hu, hout, hcfg⟩ := step_terminator (t := t)
      ((afterBytes_resetSeen (offers.filterMap id) { s with inputs := [t.pins] }).trans hseen) (afterBytes_inputs _ _)
    refine ⟨u, run_succ_of_step 0 hu, ?_, hcfg.trans (afterBytes_cfg _ _)⟩
    rw [hout, outcome_some]
    exact congrArg (RunOutcome.endedBy t) hreport

end Sys2Proof.Machine
end

section
/-! PROOFS. What is out of the stream's reach (R224): a cycle in which the caller drives none of its own inputs. -/

namespace Sys2Proof.Machine

/-! ## The fields that only the caller's inputs write -/

/-- The two states agree in `CFG` and in the fields of the model's own (log entries 1 and 3). -/
structure State.SameControl (s t : State) : Prop where
  cfg : t.cfg = s.cfg
  inputs : t.inputs = s.inputs
  resetSeen : t.resetSeen = s.resetSeen

theorem State.SameControl.refl (s : State) : s.SameControl s := ⟨rfl, rfl, rfl⟩

theorem State.SameBytes.sameControl {s t : State} (h : s.SameBytes t) : s.SameControl t :=
  ⟨h.cfg, by rw [h], h.resetSeen⟩

/-- `BYTE` writes no control field, in the states that R40 rules out either: it stores, latches and completes. -/
theorem sameControl_exec_byte {s t : State} {b : Byte} (h : exec (.byte b) s = .next t) : s.SameControl t := by
  rcases waiting_or_terminal s with (hst | hst) | hst
  · rw [exec_byte_awaitHdr b hst] at h
    rcases takeHeaderByte_cases b s with ⟨-, hr⟩ | ⟨-, hr⟩
    · cases hr.symm.trans h
      exact ⟨rfl, rfl, rfl⟩
    · rw [exec_decodeHeaderWord (s := s.storeHeaderByte b) _ hst] at hr
      cases hr.symm.trans h
      obtain ⟨hcfg, hinputs, hseen⟩ := (sameBytes_concludeHeader _ _).sameControl
      exact ⟨hcfg, hinputs, hseen⟩
  · obtain ⟨hcfg, hinputs, hseen⟩ := (sameBytes_byte_awaitAddr hst h).sameControl
    exact ⟨hcfg, hinputs, hseen⟩
  · cases (exec_byte_terminal b hst).symm.trans h
    exact .refl s

/-! ## The cycle without the caller's inputs -/

/-- Below `RST` and `CLR`, an event either takes the byte offered in a waiting state, or leaves the held bytes and the
counters as they are (R158 to R170). -/
theorem exec_reduce_cases {s t : State} {p : Pins} (hrst : p.rst = false) (hclr : p.clr = false)
    (h : exec (reduce s p) s = .next t) :
    (s.waiting ∧ exec (.byte p.inData) s = .next t) ∨ s.SameBytes t := by
  rw [reduce_of_not_rst_clr hrst hclr] at h
  split_ifs at h with htimeout hioerr hbyte heof
  · exact .inr (sameBytes_endRun h)
  · exact .inr (sameBytes_endRun h)
  · have hready : s.inReady = true := (Bool.and_eq_true_iff.mp hbyte).2
    exact .inl ⟨(inReady_iff s).mp hready, h⟩
  · exact .inr (sameBytes_endRun h)
  · cases h
    exact .inr (State.SameBytes.refl s)

/-- What a cycle without a configuration write answers, its event answers (R78, R151). -/
theorem exec_reduce_of_cycle {s t : State} {p : Pins} (hquiet : p.cfgWe = false) (h : cycle s p = .next t) :
    exec (reduce s p) s = .next t := by
  obtain ⟨-, u, hu, rfl⟩ := cycle_cases h
  simpa [hquiet] using hu

/-- Settles O54: the cycle is its event alone, which takes a byte or writes `st`, `err` and `io_cause` at most. -/
theorem streamCannotReachControl : Obligations.StreamCannotReachControl := by
  intro s t p hrst hclr hquiet hcycle
  have hevent := exec_reduce_of_cycle hquiet hcycle
  have hcases := exec_reduce_cases hrst hclr hevent
  have hcontrol : s.SameControl t := by
    rcases hcases with ⟨-, hbyte⟩ | hsame
    · exact sameControl_exec_byte hbyte
    · exact hsame.sameControl
  refine ⟨hcontrol.cfg, hcontrol.inputs, hcontrol.resetSeen, fun hst => ?_, fun hinv => ?_⟩
  · cases (exec_reduce_of_terminal hst hrst hclr).symm.trans hevent
    rfl
  · rcases hcases with ⟨hst, hbyte⟩ | hsame
    · have hadvance := (hinv.byte_waiting hst hbyte).1
      omega
    · exact (congrArg BitVec.toNat hsame.pos).ge

end Sys2Proof.Machine
end

section
/-! PROOFS. Several instances (R61, R230): a step of one writes that instance's place of the platform and reads no other
(log entry 9). -/

namespace Sys2Proof.Machine

/-- A step of one of the states that answers puts the answer in its place (R230). -/
theorem stepInstance_of_step {j : Nat} {platform : List State} {s t : State} (hj : platform[j]? = some s)
    (ht : step s = .next t) : stepInstance j platform = some (platform.set j t) :=
  stepInstance_eq_some.mpr ⟨s, t, hj, ht, rfl⟩

/-- A write of a place that the platform has is what is read there. -/
theorem getElem?_set_self_of_some {j : Nat} {platform : List State} {s : State} (hj : platform[j]? = some s)
    (t : State) : (platform.set j t)[j]? = some t := by
  rw [List.getElem?_set_self', hj]
  rfl

/-- Settles O60: each step writes its own place, and writes of two different places commute. -/
theorem instancesDoNotInterfere : Obligations.InstancesDoNotInterfere := by
  refine ⟨fun j platform s t hj ht => ?_, fun j k platform s s' t t' hne hj ht hk ht' => ?_⟩
  · exact ⟨platform.set j t, stepInstance_of_step hj ht, getElem?_set_self_of_some hj t,
      fun n hn => List.getElem?_set_ne hn.symm⟩
  · have hkeptK : (platform.set j t)[k]? = some s' := (List.getElem?_set_ne hne).trans hk
    have hkeptJ : (platform.set k t')[j]? = some s := (List.getElem?_set_ne hne.symm).trans hj
    have hcomm : (platform.set j t).set k t' = (platform.set k t').set j t := List.set_comm t t' hne
    refine ⟨platform.set j t, platform.set k t', (platform.set j t).set k t', stepInstance_of_step hj ht,
      stepInstance_of_step hk ht', stepInstance_of_step hkeptK ht', ?_, ?_, getElem?_set_self_of_some hkeptK t'⟩
    · rw [hcomm]
      exact stepInstance_of_step hkeptJ ht
    · rw [hcomm]
      exact getElem?_set_self_of_some hkeptJ t

end Sys2Proof.Machine
end

section
/-! PROOFS. The two ends of a run's life: no step before the first `RST` (R241), and a terminal state after a
terminator (R12, R248). -/

namespace Sys2Proof.Machine

/-! ## Before the first `RST` -/

/-- Before the first `RST` a cycle without `rst` is refused by name (R241). -/
theorem cycle_of_not_resetSeen {s : State} {p : Pins} (hseen : s.resetSeen = false) (hrst : p.rst = false) :
    cycle s p = .refused .beforeFirstReset := by
  simp [cycle, hseen, hrst]

/-- Settles O49: a step is a cycle on the sample taken, which is refused without `rst`, and with `rst` is the reset
state from any state. -/
theorem noStepBeforeFirstReset : Obligations.NoStepBeforeFirstReset := fun s hseen =>
  ⟨fun hrst => cycle_of_not_resetSeen (s := s.popInput) hseen hrst,
    fun hrst => resetWinsOverEverything s.popInput s.nextPins hrst⟩

/-! ## The samples that end a run -/

/-- The sample is a timeout, a stream error, or an end of stream with no byte offered (R248). -/
def Pins.endsRun (p : Pins) : Bool := p.timeout || p.inErr || (p.inEof && !p.inValid)

theorem boundedWait_cons (p : Pins) (rest : List Pins) :
    boundedWait (p :: rest) = (p.endsRun || boundedWait rest) := rfl

/-- A terminator leaves every state terminal: it ends a waiting run, and a terminal state stays (R164 to R169). -/
theorem terminal_of_endRun {eh ea : DecodeError} {io : Bool} {s t : State} (h : endRun eh ea io s = .next t) :
    t.terminal := by
  rcases endRun_cases eh ea io s with ⟨-, hr⟩ | ⟨-, hr⟩ | ⟨hst, hr⟩
  · cases hr.symm.trans h
    exact .inr rfl
  · cases hr.symm.trans h
    exact .inr rfl
  · cases hr.symm.trans h
    exact hst

/-- The event of a sample that ends a run is a terminator: with `in_eof` alone no byte is offered, so `EOF` is what the
tests of R158 come to. -/
theorem terminal_of_endsRun {s t : State} {p : Pins} (hrst : p.rst = false) (hclr : p.clr = false)
    (hends : p.endsRun = true) (h : exec (reduce s p) s = .next t) : t.terminal := by
  rw [reduce_of_not_rst_clr hrst hclr] at h
  split_ifs at h with htimeout hioerr hbyte heof
  · exact terminal_of_endRun h
  · exact terminal_of_endRun h
  · simp [Pins.endsRun, htimeout, hioerr, (Bool.and_eq_true_iff.mp hbyte).1] at hends
  · exact terminal_of_endRun h
  · simp [Pins.endsRun, htimeout, hioerr, heof] at hends

/-! ## Cycles and runs without `RST` and `CLR` -/

/-- Below `RST` and `CLR`, no event writes a control field (R151). -/
theorem sameControl_exec_reduce {s t : State} {p : Pins} (hrst : p.rst = false) (hclr : p.clr = false)
    (h : exec (reduce s p) s = .next t) : s.SameControl t := by
  rcases exec_reduce_cases hrst hclr h with ⟨-, hbyte⟩ | hsame
  · exact sameControl_exec_byte hbyte
  · exact hsame.sameControl

/-- A cycle without `RST` and `CLR` ends in a terminal state if it began in one or its sample ends the run, and it keeps
the model's own fields (log entries 1 and 3). -/
theorem cycle_of_not_rst_clr {s : State} {p : Pins} (hseen : s.resetSeen = true) (hrst : p.rst = false)
    (hclr : p.clr = false) :
    ∃ t, cycle s p = .next t ∧ t.resetSeen = true ∧ t.inputs = s.inputs ∧
      (s.terminal ∨ p.endsRun = true → t.terminal) := by
  obtain ⟨u, hu⟩ := exec_next (reduce s p) s
  have hcontrol := sameControl_exec_reduce hrst hclr hu
  have hterminal : s.terminal ∨ p.endsRun = true → u.terminal := by
    rintro (hst | hends)
    · cases (exec_reduce_of_terminal hst hrst hclr).symm.trans hu
      exact hst
    · exact terminal_of_endsRun hrst hclr hends hu
  exact ⟨_, cycle_eq (.inl hseen) hu, hcontrol.resetSeen.trans hseen, hcontrol.inputs, hterminal⟩

/-- A run over samples without `RST` and `CLR` ends in a terminal state if it began in one, where it then stays, or if
one of the samples ends it (R12, R170, R248). -/
theorem run_terminal {s : State} {inputs : List Pins} (hseen : s.resetSeen = true) (hin : s.inputs = inputs)
    (hquiet : ∀ p ∈ inputs, p.rst = false ∧ p.clr = false) (hends : s.terminal ∨ boundedWait inputs = true) :
    ∃ t, Host.Core.run Sys2Proof.core inputs.length s = .next t ∧ t.terminal := by
  induction inputs generalizing s with
  | nil => exact ⟨s, rfl, hends.resolve_right Bool.false_ne_true⟩
  | cons p rest ih =>
    obtain ⟨⟨hrst, hclr⟩, hquiet'⟩ := List.forall_mem_cons.mp hquiet
    obtain ⟨t, ht, hseen', hin', hterminal⟩ := cycle_of_not_rst_clr (s := { s with inputs := rest }) hseen hrst hclr
    have hends' : t.terminal ∨ boundedWait rest = true := by
      rw [boundedWait_cons, Bool.or_eq_true, ← or_assoc] at hends
      exact hends.imp_left hterminal
    rw [List.length_cons, run_succ_of_step _ ((step_of_inputs_cons hin).trans ht)]
    exact ih hseen' hin' hquiet' hends'

/-- Settles O55: the run over all pending samples, one of which ends it. -/
theorem boundedWaitEndsEveryRun : Obligations.BoundedWaitEndsEveryRun := fun _ hseen _ hquiet hwait =>
  run_terminal hseen rfl hquiet (.inr hwait)

end Sys2Proof.Machine
end
